-- ==== Sys2Proof/Word.lean ====
section
/-! DEFINITION. The word types of the Peripheral Event Engine (00_scope.md R10, 30_encoding.md R101). -/

namespace Sys2Proof

/-- A byte of a buffer, a FIFO, memory or a sector. -/
abbrev Byte := BitVec 8

/-- A ClockValue (00_scope.md R13): a count of bus cycles that wraps at `CW` bits (R8). It stands zero-extended in 64 bits,
the most that `CW` can be. -/
abbrev Clock := BitVec 64

/-- A command word or a response word (30_encoding.md R101, R103). -/
abbrev Word128 := BitVec 128

/-- An Agenda `param`, `PW` bits wide (00_scope.md R8), carried bit for bit in the 32 bits of PARAM (30_encoding.md R101). -/
abbrev Param := BitVec 32

/-- An address of system memory (20_memory.md R73), `DMA_ADDR_W` bits wide (00_scope.md R8), in the 32 bits of PARAM and
DATA. -/
abbrev Addr := BitVec 32

/-- A callback identity: a number below `NCB`, which is at most 256 (00_scope.md R8). -/
abbrev CbId := Fin 256

/-- A buffer number: a number below `NBUF`, in the 8 bits of SEL (30_encoding.md R101). -/
abbrev BufId := Fin 256

/-- An ACSI device number: a number below `ACSI_NDEV`, in three bits (30_encoding.md R119, 10_state.md R49). -/
abbrev Dev := Fin 8

/-- A disk or image handle, as the command word carries it (30_encoding.md R105). -/
abbrev Handle := BitVec 16

/-- A sector number, at the width of the response's DATA field that returns it (44_floppy.md R273).
DESIGN CHOICE (log entry 19): the spec gives sector numbers no width. -/
abbrev Sector := BitVec 32

/-- The two command ports (30_encoding.md R100). -/
inductive Port where
  /-- Port E: the host. -/
  | E
  /-- Port X: the I/O thread. -/
  | X
deriving DecidableEq, Repr

end Sys2Proof
end

