-- ==== Sys2Proof/Machine/Parts.lean ====
section
/-! DEFINITION. The parts of the state as plain data: an Agenda entry, the dispatcher, a buffer, the chips, the pins
(10_state.md R24 to R51). -/

namespace Sys2Proof.Machine

/-! ### Agenda (10_state.md R24, R25) -/

/-- A pending Agenda entry (R24). A slot is an option of one: `pending = 0` is `none`, and the two other fields of such
a slot hold no value (R24, R58). -/
structure AgEntry where
  /-- `fire_time`. -/
  fireTime : Clock
  /-- `param`. -/
  param : Param
deriving DecidableEq, Repr

/-- The dispatcher state `disp` (R25). -/
inductive Disp where
  /-- No ADVANCE in progress. -/
  | idle
  /-- An ADVANCE is choosing or running entries. -/
  | scan
  /-- An external callback has been handed to the host and its FIRE_ACK is owed. -/
  | waitAck
deriving DecidableEq, Repr

/-! ### CircularBuffer (10_state.md R30) -/

/-- A CircularBuffer. A store byte that nothing has written holds no value (R58): `none`. -/
structure CircBuf where
  /-- `cap`: 0 means inert. -/
  cap : Nat
  /-- `store[0..cap-1]`. -/
  store : List (Option Byte)
  /-- `rd`: the slot before the oldest unread byte. -/
  rd : Nat
  /-- `wr`: the slot the next byte is written to. -/
  wr : Nat
  /-- `mx`: the mutual-exclusion flag. -/
  mx : Bool
deriving DecidableEq, Repr

/-! ### ACIA (10_state.md R33) -/

/-- The clock-divide factor: one of 1, 16, 64 (R33). -/
inductive ClockDivide where
  | by1 | by16 | by64
deriving DecidableEq, Repr

/-- An ACIA. -/
structure Acia where
  /-- `CR`, the control register. -/
  cr : Byte
  /-- `SR.RDRF`. -/
  rdrf : Bool
  /-- `SR.TDRE`. -/
  tdre : Bool
  /-- `TDR`, the transmit holding register. -/
  tdr : Byte
  /-- `TDRS`, the transmit shift register. -/
  tdrs : Byte
  /-- `RDR`, the receive data register. -/
  rdr : Byte
  /-- `RDRS`, the receive shift register. -/
  rdrs : Byte
  /-- `irq`, also status bit 7. -/
  irq : Bool
  /-- `clock_divide`. -/
  clockDivide : ClockDivide
  /-- `tx_irq_en`. -/
  txIrqEn : Bool
  /-- `rx_irq_en`. -/
  rxIrqEn : Bool
  /-- `line_busy_tx`. -/
  lineBusyTx : Bool
  /-- `line_busy_rx`. -/
  lineBusyRx : Bool
  /-- `overrun`, also status bit 5. -/
  overrun : Bool
  /-- `last_tx_write`. -/
  lastTxWrite : Clock
deriving DecidableEq, Repr

/-! ### DMA (10_state.md R38) -/

/-- The DMA controller. -/
structure Dma where
  /-- `MCR`, mode control. -/
  mcr : BitVec 16
  /-- `sct`, the sector counter: `DMA_SCT_W` bits, in the 32 of its register's DATA. -/
  sct : BitVec 32
  /-- `bct`, the byte counter within the sector. -/
  bct : BitVec 10
  /-- `fifo[h][k]`. -/
  fifo : Vector (Vector Byte 16) 2
  /-- `idx`, the FIFO index. -/
  idx : Fin 16
  /-- `sel`, the active half. -/
  sel : Fin 2
  /-- `drq`, the data-request flag. -/
  drq : Bool
  /-- `err`, the error latch. -/
  err : Bool
  /-- `addr`, the memory address counter: `DMA_ADDR_W` bits, in the 32 of its register's DATA. -/
  addr : Addr
deriving DecidableEq, Repr

/-! ### Floppy (10_state.md R43, R46) -/

/-- A floppy slot. -/
structure Fdd where
  track : BitVec 8
  motor : Bool
  reading : Bool
  writing : Bool
  /-- `t_next`, the time of the next index pulse. -/
  tNext : Clock
  /-- `t_last`, the time of the last index pulse. -/
  tLast : Clock
  /-- `cpb`, cycles per byte. -/
  cpb : BitVec 32
  /-- `disk`: a handle, or none (empty). -/
  disk : Option Handle
  singleSided : Bool
  ghost : Bool
  /-- `cond`: 0 OK, 1 NO_DISK, 2 NO_SECTOR, 3 IO_ERROR. -/
  cond : Byte
  /-- `xf_sector` (R46). -/
  xfSector : Sector
  /-- `xf_size` (R46). -/
  xfSize : Nat
  /-- `xf_buf` (R46). -/
  xfBuf : List Byte
deriving DecidableEq, Repr

/-! ### ACSI (10_state.md R48, R49) -/

/-- An ACSI device. Its device number is its index. -/
structure AcsiDev where
  present : Bool
  image : Option Handle
  sectors : BitVec 32
  cmd : Vector Byte 6
  phase : Fin 8
  status : Byte
  error : Byte
  /-- `cur_lba`. -/
  curLba : BitVec 24
deriving DecidableEq, Repr

/-- The direction of a block transfer (`ax_dir`). -/
inductive Dir where
  | read | write
deriving DecidableEq, Repr

/-- The bus-wide transfer state (R49). -/
structure AcsiXfer where
  /-- `ax_dir`. -/
  dir : Dir
  /-- `ax_lba`, the next block. -/
  lba : Sector
  /-- `ax_left`, blocks still to move. -/
  left : Nat
deriving DecidableEq, Repr

/-! ### Pins (10_state.md R51) -/

/-- The interrupt lines (60_exceptions.md R355). -/
inductive IrqLine where
  | kbd | midi | disk
deriving DecidableEq, Repr

/-- The levels of the three pins, `true` meaning asserted. -/
structure Pins where
  kbd : Bool
  midi : Bool
  disk : Bool
deriving DecidableEq, Repr

end Sys2Proof.Machine
end

