-- ==== Sys2Proof/Config.lean ====
section
/-! DEFINITION. The implementation parameters of 00_scope.md R8 and R9 and the reset values of 70_reset_and_hazards.md R392:
the fields of `Params`, a record that the state holds, that no step changes, and that `Params.default` fills with the spec's
defaults (log entries 6 and 28). `Params.Ok` says which records are legal. The OPEN parameters and the free values are
constants without a body: nothing can be proved of them but that they have a value. -/

namespace Sys2Proof

/-! ### Reset values -/

/-- The reset values that are the spec's own (10_state.md R57), which 70_reset_and_hazards.md R392 makes configuration
defaults (log entry 28). Those that have a name in 00_scope.md R8 are fields of `Params` of their own. A field stands for
every instance of its element. -/
structure ResetValues where
  /-- What an Agenda slot holds (10_state.md R24). -/
  entry : Option Machine.AgEntry
  /-- `disp` (R25). -/
  disp : Machine.Disp
  /-- `fire_cb` (R25). -/
  fireCb : BitVec 8
  /-- `fire_param` (R25). -/
  fireParam : Param
  /-- `rd` of a buffer (R30). -/
  bufferRd : Nat
  /-- `wr` of a buffer. -/
  bufferWr : Nat
  /-- `mx` of a buffer. -/
  bufferMx : Bool
  /-- `CR` of an ACIA (R33). -/
  aciaCr : Byte
  /-- `TDR`. -/
  aciaTdr : Byte
  /-- `TDRS`. -/
  aciaTdrs : Byte
  /-- `RDR`. -/
  aciaRdr : Byte
  /-- `RDRS`. -/
  aciaRdrs : Byte
  /-- `clock_divide`. -/
  aciaClockDivide : Machine.ClockDivide
  /-- The DMA controller (R38). -/
  dma : Machine.Dma
  /-- `track` of a floppy slot (R43). -/
  fddTrack : BitVec 8
  /-- `motor`. -/
  fddMotor : Bool
  /-- `reading`. -/
  fddReading : Bool
  /-- `writing`. -/
  fddWriting : Bool
  /-- `disk`. -/
  fddDisk : Option Handle
  /-- `single_sided`. -/
  fddSingleSided : Bool
  /-- `ghost`. -/
  fddGhost : Bool
  /-- `cond`. -/
  fddCond : Byte
  /-- `xf_sector` (R46). -/
  fddXfSector : Sector
  /-- `xf_size` (R46). -/
  fddXfSize : Nat
  /-- `xf_buf` (R46). -/
  fddXfBuf : List Byte
  /-- `last_step` of a drive (R59). -/
  lastStep : Option Clock
  /-- `present` of an ACSI device (R48). -/
  acsiPresent : Bool
  /-- `image`. -/
  acsiImage : Option Handle
  /-- `sectors`. -/
  acsiSectors : BitVec 32
  /-- `cmd[0..5]`. -/
  acsiCmd : Vector Byte 6
  /-- `cur_lba`. -/
  acsiCurLba : BitVec 24
  /-- `acsi_dev` (R49). -/
  acsiDev : Dev
  /-- The bus-wide transfer state (R49). -/
  ax : Machine.AcsiXfer
  /-- The pins (R51). -/
  pins : Machine.Pins
deriving DecidableEq, Repr

/-- The DMA controller's reset column (10_state.md R38): all zero. -/
def Machine.Dma.reset : Machine.Dma where
  mcr := 0
  sct := 0
  bct := 0
  fifo := Vector.replicate 2 (Vector.replicate 16 0)
  idx := 0
  sel := 0
  drq := false
  err := false
  addr := 0

/-- The reset table (10_state.md R57). A drive's transfer state, "none held" (R46), and `ax_dir` and `ax_lba` have no value
in it: zero, DESIGN CHOICE (log entry 20). -/
def ResetValues.default : ResetValues where
  entry := none
  disp := .idle
  fireCb := 0
  fireParam := 0
  bufferRd := 0
  bufferWr := 0
  bufferMx := false
  aciaCr := 0
  aciaTdr := 0
  aciaTdrs := 0
  aciaRdr := 0
  aciaRdrs := 0
  aciaClockDivide := .by1
  dma := .reset
  fddTrack := 0
  fddMotor := false
  fddReading := false
  fddWriting := false
  fddDisk := none
  fddSingleSided := false
  fddGhost := false
  fddCond := 0
  fddXfSector := 0
  fddXfSize := 0
  fddXfBuf := []
  lastStep := none
  acsiPresent := false
  acsiImage := none
  acsiSectors := 0
  acsiCmd := Vector.replicate 6 0
  acsiCurLba := 0
  acsiDev := 0
  ax := { dir := .read, lba := 0, left := 0 }
  pins := { kbd := false, midi := false, disk := false }

/-! ### The parameters -/

/-- The parameters (00_scope.md R8; the last two before the reset values are literals of R9). A field's type says what R8 or
the register it is compared with allows; a value that is a ClockValue stands in 64 bits, the most that `CW` can be. -/
structure Params where
  /-- `CW`: the width of a ClockValue. -/
  cw : Nat
  /-- `CLOCK_RESET`: the ClockValue at cold boot. -/
  clockReset : BitVec 64
  /-- `PW`: the width of an Agenda `param`. -/
  pw : Nat
  /-- `NCB`: the number of callback identities. -/
  ncb : Nat
  /-- `NCB_INT`: identities below it are internal. -/
  ncbInt : Nat
  /-- `NBUF`: the number of CircularBuffers. -/
  nbuf : Nat
  /-- `CFG_RESET`: the reset value of the engine CFG register. -/
  cfgReset : BitVec 8
  /-- `CB_MAXCAP`: the largest capacity CB_CREATE accepts. -/
  cbMaxcap : Nat
  /-- `CB_BURST_MAX`: the most bytes one CB_ADDBYTES carries. -/
  cbBurstMax : Nat
  /-- `ACIA_FRAME_BITS`: bits per transmitted or received byte (90_conflicts.md C2). -/
  aciaFrameBits : Nat
  /-- `ACIA_CLK_CYCLES`: bus cycles per tick of the ACIA clock. -/
  aciaClkCycles : Nat
  /-- `DMA_SECTOR_BYTES`: bytes the DMA counts as one sector, at the width of the byte counter (10_state.md R38). -/
  dmaSectorBytes : BitVec 10
  /-- `DMA_SCT_W`: the width of the DMA sector counter. -/
  dmaSctW : Nat
  /-- `DMA_ADDR_W`: the width of the DMA address counter. -/
  dmaAddrW : Nat
  /-- `FDD_BYTES_PER_TRACK`: bytes per rotation. -/
  fddBytesPerTrack : Nat
  /-- `FDD_CPB_RESET`: cycles per byte at cold boot. -/
  fddCpbReset : BitVec 32
  /-- `FDD_MAX_TRACK`: the highest track number, at the width of a track (10_state.md R43). -/
  fddMaxTrack : BitVec 8
  /-- `FDD_SETTLE_CYCLES`: the settle time after a step, of which only the contract speaks (70_reset_and_hazards.md R405).
  OPEN: `none` is "unset", with which nothing is asked. -/
  fddSettleCycles : Option Nat
  /-- `FDD_RPM`: drive rotations per minute. -/
  fddRpm : Nat
  /-- `HBL_PER_SEC`: scanlines per second. -/
  hblPerSec : Nat
  /-- `ACSI_NDEV`: the number of ACSI device slots. -/
  acsiNdev : Nat
  /-- `ACSI_BLOCK_BYTES`: bytes per ACSI block. -/
  acsiBlockBytes : Nat
  /-- `ACSI_BLOCK_CYCLES`: the delay per block in timed mode. -/
  acsiBlockCycles : BitVec 64
  /-- `ACSI_ST_OK`. -/
  acsiStOk : BitVec 8
  /-- `ACSI_ST_ERR`. -/
  acsiStErr : BitVec 8
  /-- `ACSI_E_NONE`. -/
  acsiENone : BitVec 8
  /-- `ACSI_E_WRITE`. -/
  acsiEWrite : BitVec 8
  /-- `ACSI_E_READ`. -/
  acsiERead : BitVec 8
  /-- `ACSI_E_OPCODE`. -/
  acsiEOpcode : BitVec 8
  /-- `ACSI_E_ADDR`. -/
  acsiEAddr : BitVec 8
  /-- The bytes of an ACSI identity string (R9; 45_acsi.md R313). -/
  acsiInquiryBytes : Nat
  /-- The bytes of an ACSI sense answer (R9; 45_acsi.md R308). -/
  acsiSenseBytes : Nat
  /-- The reset values without a name in R8 (70_reset_and_hazards.md R392). -/
  reset : ResetValues
deriving DecidableEq, Repr

/-- The defaults (00_scope.md R8), `FDD_SETTLE_CYCLES` being unset, and the numbers of R9. -/
def Params.default : Params where
  cw := 64
  clockReset := 0
  pw := 32
  ncb := 32
  ncbInt := 16
  nbuf := 2
  cfgReset := 0x01
  cbMaxcap := 65536
  cbBurstMax := 12
  aciaFrameBits := 9
  aciaClkCycles := 16
  dmaSectorBytes := 512
  dmaSctW := 8
  dmaAddrW := 24
  fddBytesPerTrack := 6250
  fddCpbReset := 256
  fddMaxTrack := 83
  fddSettleCycles := none
  fddRpm := 300
  hblPerSec := 15625
  acsiNdev := 8
  acsiBlockBytes := 512
  acsiBlockCycles := 4096
  acsiStOk := 0x00
  acsiStErr := 0x02
  acsiENone := 0x00
  acsiEWrite := 0x03
  acsiERead := 0x11
  acsiEOpcode := 0x20
  acsiEAddr := 0x21
  acsiInquiryBytes := 32
  acsiSenseBytes := 4
  reset := .default

/-- The legal records (00_scope.md R8). The bounds are R8's own, or come from a field that carries the value: the 32 bits of
PARAM and DATA (30_encoding.md R101, R103), the 8 bits of SEL, the 12 burst bytes of a command word (R106), the three bits
that name an ACSI device (R119), the nine identities that the chips own (R118), the 16 bits of BYTEPOS (R114), the 17 bits
of a buffer's capacity (10_state.md R30: R8 sets no bound on `CB_MAXCAP`, and `cap` is 17 bits wide); `CFG` has only bit 0
(40_agenda.md R145), a DMA sector is a whole number of halves (43_dma.md R239), a byte lasts at least a cycle
(44_floppy.md R280). The parameters that multiply or divide are positive, and a rotation has at least one scanline, because
46_cross_family.md R330 calls the first so and keeps every divisor nonzero. Log entry 6 marks each bound.

Reset values are legal when nothing runs by itself after reset (70_reset_and_hazards.md R391) and the invariants of
10_state.md hold there: an inert buffer's cursors and flag (R30, 41_circular_buffer.md R163), the clear enables of an ACIA
and its `CR` (R33), the counters in their ranges (R38, R41, R43), no flag of a disk without a disk (44_floppy.md R262,
R263), five bits of an opcode (45_acsi.md R303). DESIGN CHOICE: every device is absent, without an image (R48). Log entry
28. -/
structure Params.Ok (p : Params) : Prop where
  cw : 2 ≤ p.cw ∧ p.cw ≤ 64
  pw : 1 ≤ p.pw ∧ p.pw ≤ 32
  identities : 9 ≤ p.ncbInt ∧ p.ncbInt ≤ p.ncb ∧ p.ncb ≤ 256
  buffers : p.nbuf ≤ 256
  burst : p.cbBurstMax ≤ 12
  counter : 1 ≤ p.dmaSctW ∧ p.dmaSctW ≤ 32
  address : 4 ≤ p.dmaAddrW ∧ p.dmaAddrW ≤ 32
  devices : 1 ≤ p.acsiNdev ∧ p.acsiNdev ≤ 8
  params : p.acsiNdev ≤ 2 ^ p.pw
  clockReset : p.clockReset.toNat < 2 ^ p.cw
  blockCycles : p.acsiBlockCycles.toNat < 2 ^ p.cw
  cfg : p.cfgReset.toNat < 2
  halves : p.dmaSectorBytes.toNat % 16 = 0
  sector : p.dmaSectorBytes ≠ 0
  cpb : p.fddCpbReset ≠ 0
  byteTime : 0 < p.aciaFrameBits ∧ 0 < p.aciaClkCycles
  track : 0 < p.fddBytesPerTrack ∧ p.fddBytesPerTrack ≤ 65536
  capacity : p.cbMaxcap < 2 ^ 17
  rotation : 0 < p.fddRpm ∧ p.fddRpm ≤ p.hblPerSec * 60
  resetIdle : p.reset.entry = none ∧ p.reset.disp = .idle ∧ p.reset.pins = { kbd := false, midi := false, disk := false }
  resetDispatcher : p.reset.fireParam.toNat < 2 ^ p.pw
  resetBuffer : p.reset.bufferRd = 0 ∧ p.reset.bufferWr = 0 ∧ p.reset.bufferMx = false
  resetAcia : p.reset.aciaCr.getLsbD 7 = false ∧ p.reset.aciaCr.extractLsb' 5 2 ≠ 1
  resetDma : p.reset.dma.sct.toNat < 2 ^ p.dmaSctW ∧ p.reset.dma.addr.toNat < 2 ^ p.dmaAddrW ∧
    p.reset.dma.bct.toNat % 16 = 0 ∧ p.reset.dma.bct.toNat < p.dmaSectorBytes.toNat
  resetDrive : p.reset.fddMotor = false ∧ p.reset.fddReading = false ∧ p.reset.fddWriting = false ∧
    p.reset.fddTrack.toNat ≤ p.fddMaxTrack.toNat
  resetDisk : p.reset.fddDisk = none → p.reset.fddSingleSided = false ∧ p.reset.fddGhost = false
  resetStep : (p.reset.lastStep.getD 0).toNat < 2 ^ p.cw
  resetAcsi : p.reset.acsiPresent = false ∧ p.reset.acsiImage = none ∧ p.reset.acsiSectors = 0 ∧
    p.reset.acsiCmd[0].toNat < 32 ∧ p.reset.acsiDev.val < p.acsiNdev

end Sys2Proof

namespace Sys2Proof.Config

/-! ### What system memory and the image store read where nothing is listed -/

/-- What a byte of system memory that the state does not list reads as.
DESIGN CHOICE (log entry 8): the spec gives memory no contents (20_memory.md R73, R74). -/
abbrev unlistedByte : BitVec 8 := 0x00

/-! ### OPEN parameters (00_scope.md R8, R9): no value in the spec -/

/-- `ACSI_FILL`: the byte the format command writes (45_acsi.md R309). OPEN. -/
opaque acsiFill : BitVec 8
/-- `ACSI_INQUIRY[k]`, byte `j` (45_acsi.md R313). OPEN. -/
opaque acsiInquiry (k : Nat) (j : Nat) : BitVec 8

/-! ### Free values -/

/-- The dispatcher's choice among entries with equal fire times (40_agenda.md R134), at choice number `n`
(log entry 5). -/
opaque tiePick (n : Nat) : Nat
/-- Whether port E (`true`) or port X moves at the first contest, when both have work (20_memory.md R86), at choice number
`n` (log entry 4). -/
opaque portTurn (n : Nat) : Bool
/-- How many more contests in a row a port wins once it is its turn, at choice number `n`: any number, but a number, so that
the other port's turn comes (20_memory.md R86, R89; log entries 4 and 25). -/
opaque portBurst (n : Nat) : Nat
/-- The 24-bit `cur_lba` after a block whose successor `n` does not fit 24 bits (45_acsi.md R316; log entry 13). -/
opaque curLbaBeyond (n : Nat) : BitVec 24
/-- The byte position, before it is taken modulo the track, when `t_last` lies after `NOW` (44_floppy.md R276 defines
it for a non-negative elapsed count only; log entry 14). -/
opaque bytePosAhead (now tLast : BitVec 64) (cpb : BitVec 32) : Nat
/-- The quotient of `n` by a divisor of 0, which no rule of the spec gives (46_cross_family.md R330; log entry 27). No
legal record of parameters and no reachable state asks for one. -/
opaque quotientByZero (n : Nat) : Nat
/-- The remainder of `n` by a divisor of 0 (46_cross_family.md R330; log entry 27). -/
opaque remainderByZero (n : Nat) : Nat
/-- The byte at index `i` of a buffer store that nothing has written (10_state.md R58; log entry 15). No reachable
state reads one. -/
opaque unwrittenByte (i : Nat) : BitVec 8

end Sys2Proof.Config
end

