-- ==== Sys2Proof/Syntax.lean ====
section
/-! DEFINITION. The instructions of the Peripheral Event Engine: one constructor per row of spec/opcode_table.json.
Three encodings share the type: 128-bit command words (28 operations and 58 register accesses), 8-bit callback
identities (fetched by the dispatcher from the Agenda) and 48-bit ACSI command blocks (fetched by a device from its
command buffer). Operands hold what the encoding's fields hold; an index that the encoding spells inside a row
(drive, device, FIFO byte) is a Fin. -/

namespace Sys2Proof

/-- The error codes of 60_exceptions.md R351, by name. -/
inductive ErrCode where
  | illegalOp | reserved | priv | badSel | badIdx | busy | timeRegress | noFire | inert | value
  | noDisk | noSector | notReady | io
deriving DecidableEq, Repr

/-- A readable register, by unit and name (30_encoding.md R111 to R116). -/
inductive ReadReg where
  | engineCfg | engineStatus | engineNow | enginePending
  | aciaSr (i : Fin 2) | aciaRdr (i : Fin 2) | aciaCr (i : Fin 2) | aciaFlags (i : Fin 2) | aciaTdrs (i : Fin 2)
  | aciaRdrs (i : Fin 2) | aciaLastTxWrite (i : Fin 2)
  | dmaStatus | dmaSct | dmaAddr | dmaBct | dmaFifoctl | dmaMcr | dmaFifo (h : Fin 2) (j : Fin 16)
  | fddTrack (d : Fin 2) | fddFlags (slot : Fin 3) | fddBytepos (d : Fin 2) | fddCpb (d : Fin 2) | fddTlast (d : Fin 2)
  | fddTnext (d : Fin 2) | fddCond (d : Fin 2)
  | acsibusStatus | acsibusOwner
  | acsidevPhase (k : Dev) | acsidevStatus (k : Dev) | acsidevError (k : Dev) | acsidevSectors (k : Dev)
  | acsidevFlags (k : Dev) | acsidevCurLba (k : Dev) | acsidevCmd (k : Dev) (j : Fin 6)
deriving DecidableEq, Repr

/-- A writable register, by unit and name (30_encoding.md R111 to R115). -/
inductive WriteReg where
  | engineCfg | aciaCr (i : Fin 2) | aciaTdr (i : Fin 2) | dmaMcr | dmaSct | dmaAddr | fddCpb (d : Fin 2) | acsibusByte
deriving DecidableEq, Repr

/-- An instruction: one constructor per row of spec/opcode_table.json. `regRd` and `regWr` are the operations as a
whole; decoding gives them for a (unit, index) pair that names no readable, or no writable, register, and the
register's own constructor otherwise (log entry 16). -/
inductive Instr where
  /-- NOP, rule R138: the all-zero word. -/
  | nop
  /-- RESET, rule R139. -/
  | reset
  /-- ADVANCE, rule R133. -/
  | advance (now : Clock)
  /-- SCHEDULE, rule R136: delay is a signed 64-bit number of cycles; cb must be 16..31. -/
  | schedule (cb : BitVec 8) (param : Param) (delay : Clock)
  /-- CANCEL, rule R140. -/
  | cancel (cb : BitVec 8)
  /-- FIRE_ACK, rule R141. -/
  | fireAck (cb : BitVec 8)
  /-- AG_QUERY, rule R142. -/
  | agQuery (cb : BitVec 8)
  /-- CB_CREATE, rule R164. -/
  | cbCreate (buf : BitVec 8) (size : BitVec 32)
  /-- CB_DESTROY, rule R165. -/
  | cbDestroy (buf : BitVec 8)
  /-- CB_RESET, rule R166. -/
  | cbReset (buf : BitVec 8)
  /-- CB_ADDBYTE, rule R167. -/
  | cbAddbyte (buf : BitVec 8) (byte : Byte)
  /-- CB_ADDBYTES, rule R168. -/
  | cbAddbytes (buf : BitVec 8) (len : BitVec 16) (burst : BitVec 96)
  /-- CB_READBYTE, rule R170. -/
  | cbReadbyte (buf : BitVec 8)
  /-- CB_NEXTBYTE, rule R171. -/
  | cbNextbyte (buf : BitVec 8)
  /-- CB_AREBYTES, rule R172. -/
  | cbArebytes (buf : BitVec 8)
  /-- CB_COUNT, rule R173. -/
  | cbCount (buf : BitVec 8)
  /-- REG_RD, rule R143: per-register rows follow (format REG). -/
  | regRd (unit : BitVec 8) (reg : BitVec 16) (now : Clock)
  /-- REG_WR, rule R144: PARAM bits above the register width are MBZ; per-register rows follow (format REG). -/
  | regWr (unit : BitVec 8) (reg : BitVec 16) (value : BitVec 32) (now : Clock)
  /-- ACIA_RXBYTE, rule R208. -/
  | aciaRxbyte (inst : BitVec 8) (byte : Byte) (now : Clock)
  /-- FDD_MOUNT, rule R262. -/
  | fddMount (slot : BitVec 8) (handle : Handle) (singleSided ghost : Bool)
  /-- FDD_UNMOUNT, rule R263. -/
  | fddUnmount (slot : BitVec 8)
  /-- FDD_MOTOR, rule R266. -/
  | fddMotor (drive : BitVec 8) (on : Bool) (now : Clock)
  /-- FDD_STEP, rule R271. -/
  | fddStep (drive : BitVec 8) (dir : Bool) (now : Clock)
  /-- FDD_READ, rule R273. -/
  | fddRead (drive : BitVec 8) (side : Bool) (now : Clock)
  /-- FDD_WRITE, rule R274. -/
  | fddWrite (drive : BitVec 8) (side : Bool) (now : Clock)
  /-- FDD_CONV, rule R278: function 0 takes no argument: PARAM MBZ. -/
  | fddConv (fn : BitVec 16) (arg : BitVec 32)
  /-- ACSI_ATTACH, rule R301. -/
  | acsiAttach (dev : BitVec 8) (handle : Handle) (sectors : BitVec 32)
  /-- ACSI_DETACH, rule R302. -/
  | acsiDetach (dev : BitVec 8)
  /-- REG_RD.ENGINE.CFG, rule R145. -/
  | regRdEngineCfg (now : Clock)
  /-- REG_WR.ENGINE.CFG, rule R145: value[7:1] nonzero is ERR_RESERVED: only bit 0 (ADV_TIMING) exists. -/
  | regWrEngineCfg (value : BitVec 8) (now : Clock)
  /-- REG_RD.ENGINE.STATUS, rule R145: fields: 10_state.md rule R28. -/
  | regRdEngineStatus (now : Clock)
  /-- REG_RD.ENGINE.NOW, rule R145. -/
  | regRdEngineNow (now : Clock)
  /-- REG_RD.ENGINE.PENDING, rule R145: fields: 10_state.md rule R29. -/
  | regRdEnginePending (now : Clock)
  /-- REG_WR.ACIA0.CR, rule R197: SetControl; CR[1:0]=3 is master reset (42_acia.md rule R198). -/
  | regWrAcia0Cr (value : BitVec 8) (now : Clock)
  /-- REG_RD.ACIA0.SR, rule R202: no side effect. -/
  | regRdAcia0Sr (now : Clock)
  /-- REG_WR.ACIA0.TDR, rule R199. -/
  | regWrAcia0Tdr (value : BitVec 8) (now : Clock)
  /-- REG_RD.ACIA0.RDR, rule R203: clears RDRF and overrun, recomputes the interrupt. -/
  | regRdAcia0Rdr (now : Clock)
  /-- REG_RD.ACIA0.CR, rule R201. -/
  | regRdAcia0Cr (now : Clock)
  /-- REG_RD.ACIA0.FLAGS, rule R201: fields: 10_state.md rule R37. -/
  | regRdAcia0Flags (now : Clock)
  /-- REG_RD.ACIA0.TDRS, rule R201. -/
  | regRdAcia0Tdrs (now : Clock)
  /-- REG_RD.ACIA0.RDRS, rule R201. -/
  | regRdAcia0Rdrs (now : Clock)
  /-- REG_RD.ACIA0.LAST_TX_WRITE, rule R201. -/
  | regRdAcia0LastTxWrite (now : Clock)
  /-- REG_WR.ACIA1.CR, rule R197: SetControl; CR[1:0]=3 is master reset (42_acia.md rule R198). -/
  | regWrAcia1Cr (value : BitVec 8) (now : Clock)
  /-- REG_RD.ACIA1.SR, rule R202: no side effect. -/
  | regRdAcia1Sr (now : Clock)
  /-- REG_WR.ACIA1.TDR, rule R199. -/
  | regWrAcia1Tdr (value : BitVec 8) (now : Clock)
  /-- REG_RD.ACIA1.RDR, rule R203: clears RDRF and overrun, recomputes the interrupt. -/
  | regRdAcia1Rdr (now : Clock)
  /-- REG_RD.ACIA1.CR, rule R201. -/
  | regRdAcia1Cr (now : Clock)
  /-- REG_RD.ACIA1.FLAGS, rule R201: fields: 10_state.md rule R37. -/
  | regRdAcia1Flags (now : Clock)
  /-- REG_RD.ACIA1.TDRS, rule R201. -/
  | regRdAcia1Tdrs (now : Clock)
  /-- REG_RD.ACIA1.RDRS, rule R201. -/
  | regRdAcia1Rdrs (now : Clock)
  /-- REG_RD.ACIA1.LAST_TX_WRITE, rule R201. -/
  | regRdAcia1LastTxWrite (now : Clock)
  /-- REG_WR.DMA.MCR, rule R233: a change of bit 8 resets the DMA. -/
  | regWrDmaMcr (value : BitVec 16) (now : Clock)
  /-- REG_RD.DMA.STATUS, rule R244: bits: 10_state.md rule R40; no side effect. -/
  | regRdDmaStatus (now : Clock)
  /-- REG_WR.DMA.SCT, rule R234. -/
  | regWrDmaSct (value : BitVec 32) (now : Clock)
  /-- REG_RD.DMA.SCT, rule R244. -/
  | regRdDmaSct (now : Clock)
  /-- REG_WR.DMA.ADDR, rule R235. -/
  | regWrDmaAddr (value : Addr) (now : Clock)
  /-- REG_RD.DMA.ADDR, rule R244. -/
  | regRdDmaAddr (now : Clock)
  /-- REG_RD.DMA.BCT, rule R244. -/
  | regRdDmaBct (now : Clock)
  /-- REG_RD.DMA.FIFOCTL, rule R244: fields: 10_state.md rule R42. -/
  | regRdDmaFifoctl (now : Clock)
  /-- REG_RD.DMA.MCR, rule R244. -/
  | regRdDmaMcr (now : Clock)
  /-- REG_RD.DMA.FIFO0_j, rule R244: IDX 16..31: fifo[0][IDX-16]. -/
  | regRdDmaFifo0 (j : Fin 16) (now : Clock)
  /-- REG_RD.DMA.FIFO1_j, rule R244: IDX 32..47: fifo[1][IDX-32]. -/
  | regRdDmaFifo1 (j : Fin 16) (now : Clock)
  /-- REG_RD.FDDd.TRACK, rule R282: SEL 4..5: drive d = SEL[0]. -/
  | regRdFddTrack (drive : Fin 2) (now : Clock)
  /-- REG_RD.FDDd.FLAGS, rule R282: fields: 10_state.md rule R44. -/
  | regRdFddFlags (drive : Fin 2) (now : Clock)
  /-- REG_RD.FDDd.BYTEPOS, rule R276: VALID = 0 when the motor is off. -/
  | regRdFddBytepos (drive : Fin 2) (now : Clock)
  /-- REG_RD.FDDd.CPB, rule R282. -/
  | regRdFddCpb (drive : Fin 2) (now : Clock)
  /-- REG_WR.FDDd.CPB, rule R280: 0 is ERR_VALUE; ERR_BUSY while the motor is on. -/
  | regWrFddCpb (drive : Fin 2) (value : BitVec 32) (now : Clock)
  /-- REG_RD.FDDd.TLAST, rule R282. -/
  | regRdFddTlast (drive : Fin 2) (now : Clock)
  /-- REG_RD.FDDd.TNEXT, rule R282. -/
  | regRdFddTnext (drive : Fin 2) (now : Clock)
  /-- REG_RD.FDDd.COND, rule R281: the read lowers IRQ_DISK. -/
  | regRdFddCond (drive : Fin 2) (now : Clock)
  /-- REG_RD.FDD2.FLAGS, rule R284: the only register of slot 2. -/
  | regRdFdd2Flags (now : Clock)
  /-- REG_WR.ACSIBUS.BYTE, rule R303: one byte offered on the bus; ACSI6 rows give the six-byte command. -/
  | regWrAcsibusByte (value : BitVec 8) (now : Clock)
  /-- REG_RD.ACSIBUS.STATUS, rule R321: status of the owning device; the read lowers IRQ_DISK. -/
  | regRdAcsibusStatus (now : Clock)
  /-- REG_RD.ACSIBUS.OWNER, rule R321: acsi_dev. -/
  | regRdAcsibusOwner (now : Clock)
  /-- REG_RD.ACSIDEVk.PHASE, rule R322: SEL 8..15: device k = SEL[2:0]. -/
  | regRdAcsidevPhase (dev : Dev) (now : Clock)
  /-- REG_RD.ACSIDEVk.STATUS, rule R322: SEL 8..15: device k = SEL[2:0]. -/
  | regRdAcsidevStatus (dev : Dev) (now : Clock)
  /-- REG_RD.ACSIDEVk.ERROR, rule R322: SEL 8..15: device k = SEL[2:0]. -/
  | regRdAcsidevError (dev : Dev) (now : Clock)
  /-- REG_RD.ACSIDEVk.SECTORS, rule R322: SEL 8..15: device k = SEL[2:0]. -/
  | regRdAcsidevSectors (dev : Dev) (now : Clock)
  /-- REG_RD.ACSIDEVk.FLAGS, rule R322: SEL 8..15: device k = SEL[2:0]. -/
  | regRdAcsidevFlags (dev : Dev) (now : Clock)
  /-- REG_RD.ACSIDEVk.CUR_LBA, rule R322: SEL 8..15: device k = SEL[2:0]. -/
  | regRdAcsidevCurLba (dev : Dev) (now : Clock)
  /-- REG_RD.ACSIDEVk.CMD0, rule R322: SEL 8..15: device k = SEL[2:0]. -/
  | regRdAcsidevCmd0 (dev : Dev) (now : Clock)
  /-- REG_RD.ACSIDEVk.CMD1, rule R322: SEL 8..15: device k = SEL[2:0]. -/
  | regRdAcsidevCmd1 (dev : Dev) (now : Clock)
  /-- REG_RD.ACSIDEVk.CMD2, rule R322: SEL 8..15: device k = SEL[2:0]. -/
  | regRdAcsidevCmd2 (dev : Dev) (now : Clock)
  /-- REG_RD.ACSIDEVk.CMD3, rule R322: SEL 8..15: device k = SEL[2:0]. -/
  | regRdAcsidevCmd3 (dev : Dev) (now : Clock)
  /-- REG_RD.ACSIDEVk.CMD4, rule R322: SEL 8..15: device k = SEL[2:0]. -/
  | regRdAcsidevCmd4 (dev : Dev) (now : Clock)
  /-- REG_RD.ACSIDEVk.CMD5, rule R322: SEL 8..15: device k = SEL[2:0]. -/
  | regRdAcsidevCmd5 (dev : Dev) (now : Clock)
  /-- CB_ACIA0_TX, rule R206. -/
  | cbAcia0Tx
  /-- CB_ACIA0_RX, rule R209: receive completion, instance 0. -/
  | cbAcia0Rx
  /-- CB_ACIA1_TX, rule R206: instance 1. -/
  | cbAcia1Tx
  /-- CB_ACIA1_RX, rule R209: instance 1. -/
  | cbAcia1Rx
  /-- CB_FDD0_INDEX, rule R268: index pulse, drive 0. -/
  | cbFdd0Index
  /-- CB_FDD1_INDEX, rule R268: index pulse, drive 1. -/
  | cbFdd1Index
  /-- CB_FDD0_XFER, rule R275: sector transfer complete, drive 0. -/
  | cbFdd0Xfer
  /-- CB_FDD1_XFER, rule R275: sector transfer complete, drive 1. -/
  | cbFdd1Xfer
  /-- CB_ACSI_BLOCK, rule R319: per-block delay; param = device number. -/
  | cbAcsiBlock
  /-- CB_RESERVED_9, rule R118: reserved: never scheduled; host access is ERR_PRIV. -/
  | cbReserved9
  /-- CB_RESERVED_10_11, rule R118: reserved. -/
  | cbReserved10 (n : Fin 2)
  /-- CB_RESERVED_12_15, rule R118: reserved: identity `12 + n`, internal. -/
  | cbReserved12 (n : Fin 244)
  /-- CB_EXTn, rule R133: identity `NCB_INT + n`. -/
  | cbExt (n : CbId)
  /-- ACSI_READY, rule R307. -/
  | acsiReady (dev : Dev) (lba : BitVec 24) (count ctrl : Byte)
  /-- ACSI_REQUEST_SENSE, rule R308: four bytes error,0,0,0 through DrqIn. -/
  | acsiRequestSense (dev : Dev) (lba : BitVec 24) (count ctrl : Byte)
  /-- ACSI_FORMAT, rule R309. -/
  | acsiFormat (dev : Dev) (lba : BitVec 24) (count ctrl : Byte)
  /-- ACSI_READ, rule R310. -/
  | acsiRead (dev : Dev) (lba : BitVec 24) (count ctrl : Byte)
  /-- ACSI_WRITE, rule R311. -/
  | acsiWrite (dev : Dev) (lba : BitVec 24) (count ctrl : Byte)
  /-- ACSI_SEEK, rule R312. -/
  | acsiSeek (dev : Dev) (lba : BitVec 24) (count ctrl : Byte)
  /-- ACSI_INQUIRY, rule R313: 32 bytes through DrqIn. -/
  | acsiInquiry (dev : Dev) (lba : BitVec 24) (count ctrl : Byte)
  /-- ACSI_MODE_SELECT, rule R314: drains c bytes through DrqOut. -/
  | acsiModeSelect (dev : Dev) (lba : BitVec 24) (count ctrl : Byte)
  /-- ACSI_INVALID, rule R315: status ACSI_ST_ERR, error ACSI_E_OPCODE; lower priority than the eight rows before it. -/
  | acsiInvalid (dev : Dev) (op : BitVec 5) (lba : BitVec 24) (count ctrl : Byte)
deriving DecidableEq, Repr

end Sys2Proof
end

