-- ==== Sys2Proof/Machine/State.lean ====
section
/-! DEFINITION. The state of the Peripheral Event Engine (10_state.md R20 to R60) as plain data, the reasons a step can
stop, and the machine right after cold boot (R57). INVENTORY.md lists each field with its rule and reset value. -/

namespace Sys2Proof.Machine

/-! ### The trace (10_state.md R60) -/

/-- An event of the output trace (R60). An `IMG(call, args, result)` event is one constructor per oracle call of
20_memory.md R78. -/
inductive Event where
  /-- `FIRE(c, param, fire_time)`. -/
  | fire (c : BitVec 8) (param : Param) (fireTime : Clock)
  /-- `TXOUT(i, byte)`. -/
  | txout (i : Fin 2) (byte : Byte)
  /-- `IRQ(line, level)`. -/
  | irq (line : IrqLine) (level : Bool)
  /-- `INDEX(d)`. -/
  | index (d : Fin 2)
  /-- `MEMR(addr, byte)`. -/
  | memr (addr : Addr) (byte : Byte)
  /-- `MEMW(addr, byte)`. -/
  | memw (addr : Addr) (byte : Byte)
  | imgSectorAt (h : Handle) (track : BitVec 8) (side : Bool) (pos : Nat) (result : Option (Sector × Nat))
  | imgExists (h : Handle) (n : Sector) (result : Option Nat)
  | imgRead (h : Handle) (n : Sector) (result : Option (List Byte))
  | imgWrite (h : Handle) (n : Sector) (bytes : List Byte) (ok : Bool)
  | ghostHas (h : Handle) (n : Sector) (result : Bool)
  | ghostRead (h : Handle) (n : Sector) (result : Option (List Byte))
  | ghostWrite (h : Handle) (n : Sector) (bytes : List Byte) (ok : Bool)
deriving DecidableEq, Repr

/-! ### The collaborators' data and the ports -/

/-- A stretch of a track that belongs to a sector: positions `first` to `last` of `track`, `side` of image `handle` are
answered by `ImgSectorAt` with (`sector`, `size`) (20_memory.md R78). -/
structure TrackSector where
  handle : Handle
  track : BitVec 8
  side : Bool
  first : Nat
  last : Nat
  sector : Sector
  size : Nat
deriving DecidableEq, Repr

/-- What the disk-image collaborator answers from (20_memory.md R77, R78): the images' sectors and the ghost overlays'
sectors, each keyed by handle and number, the track layout, and whether each coming fallible call fails. -/
structure Disks where
  image : List (Nat × List Byte)
  ghost : List (Nat × List Byte)
  layout : List TrackSector
  ioFail : List Bool
deriving DecidableEq, Repr

/-- A command port (30_encoding.md R100): the words issued and not yet answered, oldest first, and the response words
given, oldest first. -/
structure PortIO where
  queue : List Word128
  replies : List Word128
deriving DecidableEq, Repr

/-- The model's own: where the free choices stand. -/
structure Choices where
  /-- How many have been taken; the next is read at this number (log entries 4 and 5). -/
  taken : Nat
  /-- The port that moved at the last contest, when both had work, and how many more it wins before the other's turn; `none`
  before the first (20_memory.md R86, R89; log entries 4 and 25). -/
  favour : Option (Port × Nat)
deriving DecidableEq, Repr

/-! ### The whole state -/

/-- The state of the machine and of what it is connected to. -/
structure State where
  /-- The model's own: the implementation parameters (00_scope.md R8), which no step changes (log entry 6). -/
  par : Params
  /-- `NOW` (R22). -/
  now : Clock
  /-- `CFG` (R23). -/
  cfg : Byte
  /-- The Agenda slot file (R24): `NCB` slots; a slot at or above `NCB` is never pending. -/
  ag : Vector (Option AgEntry) 256
  /-- `disp` (R25). -/
  disp : Disp
  /-- `adv_target` (R25). -/
  advTarget : Clock
  /-- `fire_cb` (R25). -/
  fireCb : BitVec 8
  /-- `fire_param` (R25). -/
  fireParam : Param
  /-- `fire_time` (R25). -/
  fireTime : Clock
  /-- The CircularBuffers (R30): `NBUF` of them; one at or above `NBUF` is never created. -/
  cb : Vector CircBuf 256
  /-- The ACIAs (R33): 0 the keyboard, 1 the MIDI instance. -/
  acia : Vector Acia 2
  /-- The DMA controller (R38). -/
  dma : Dma
  /-- The floppy slots (R43): 0 and 1 the drives, 2 the inspection slot (R47). -/
  fdd : Vector Fdd 3
  /-- `last_step` of the two drives (R59). -/
  lastStep : Vector (Option Clock) 2
  /-- The ACSI devices (R48): `ACSI_NDEV` of them; one at or above `ACSI_NDEV` is never attached. -/
  acsi : Vector AcsiDev 8
  /-- `acsi_dev`, the device that last claimed the bus (R49). -/
  acsiDev : Dev
  /-- The bus-wide transfer state (R49). -/
  ax : AcsiXfer
  /-- The interrupt pins (R51). -/
  pins : Pins
  /-- The output event trace, oldest first (R60). -/
  trace : List Event
  /-- The model's own: the device whose complete command waits to be dispatched inside the bus write in service
  (45_acsi.md R303; log entry 2). -/
  acsiPending : Option Dev
  /-- The model's own: the port whose command is being served (60_exceptions.md R362). -/
  serving : Port
  /-- Port E. -/
  portE : PortIO
  /-- Port X. -/
  portX : PortIO
  /-- The model's own: where the free choices stand (log entries 4, 5 and 25). -/
  picks : Choices
  /-- System memory (20_memory.md R73), canonical (Memory.wf). -/
  mem : List Host.Cell
  /-- The disk-image collaborator's data (20_memory.md R78). -/
  disks : Disks
deriving DecidableEq, Repr

/-- Why a step can stop with a fault: never. The PEE takes no traps, every error is a response code or a status bit
(60_exceptions.md R350, R354), and memory never faults (20_memory.md R74). Having no constructor is safe. -/
inductive Fault : Type
deriving DecidableEq, Repr

/-- Why a step can answer with a refusal. -/
inductive Refusal where
  /-- Raised by `exec` alone, for an instruction that has no meaning yet; safe, since it stops where the hardware goes
  on. No arm uses it: every instruction has its meaning. -/
  | notModelled (mnemonic : String)
deriving DecidableEq, Repr

/-! ### Cold boot (10_state.md R57)

The reset values are the configuration's, `Params.reset`, or are parameters of their own (`CLOCK_RESET`, `CFG_RESET` and
others), but for what the source itself states and 70_reset_and_hazards.md R392 lists: an inert buffer has no capacity, an
ACIA has its flags clear and is ready to transmit, a device that accepts commands is in phase 7 (log entry 28). -/

/-- A buffer at cold boot (R30): inert, with no capacity. -/
def CircBuf.cold (p : Params) : CircBuf where
  cap := 0
  store := []
  rd := p.reset.bufferRd
  wr := p.reset.bufferWr
  mx := p.reset.bufferMx

/-- An ACIA at cold boot (R33): "transmitter ready", all flags clear (42_acia.md R192 says which are flags). -/
def Acia.cold (p : Params) : Acia where
  cr := p.reset.aciaCr
  rdrf := false
  tdre := true
  tdr := p.reset.aciaTdr
  tdrs := p.reset.aciaTdrs
  rdr := p.reset.aciaRdr
  rdrs := p.reset.aciaRdrs
  irq := false
  clockDivide := p.reset.aciaClockDivide
  txIrqEn := false
  rxIrqEn := false
  lineBusyTx := false
  lineBusyRx := false
  overrun := false
  lastTxWrite := p.clockReset

/-- A floppy slot at cold boot (R43, R46). -/
def Fdd.cold (p : Params) : Fdd where
  track := p.reset.fddTrack
  motor := p.reset.fddMotor
  reading := p.reset.fddReading
  writing := p.reset.fddWriting
  tNext := p.clockReset
  tLast := p.clockReset
  cpb := p.fddCpbReset
  disk := p.reset.fddDisk
  singleSided := p.reset.fddSingleSided
  ghost := p.reset.fddGhost
  cond := p.reset.fddCond
  xfSector := p.reset.fddXfSector
  xfSize := p.reset.fddXfSize
  xfBuf := p.reset.fddXfBuf

/-- An ACSI device at cold boot (R48): ready to accept a command, phase 7. -/
def AcsiDev.cold (p : Params) : AcsiDev where
  present := p.reset.acsiPresent
  image := p.reset.acsiImage
  sectors := p.reset.acsiSectors
  cmd := p.reset.acsiCmd
  phase := 7
  status := p.acsiStOk
  error := p.acsiENone
  curLba := p.reset.acsiCurLba

/-- The machine right after cold boot under given parameters (R57, 70_reset_and_hazards.md R390). Outside the PEE nothing
is issued, nothing is listed in memory and no image has contents (log entries 3, 8, 9). -/
def State.cold (p : Params) : State where
  par := p
  now := p.clockReset
  cfg := p.cfgReset
  ag := Vector.replicate 256 p.reset.entry
  disp := p.reset.disp
  advTarget := p.clockReset
  fireCb := p.reset.fireCb
  fireParam := p.reset.fireParam
  fireTime := p.clockReset
  cb := Vector.replicate 256 (CircBuf.cold p)
  acia := Vector.replicate 2 (Acia.cold p)
  dma := p.reset.dma
  fdd := Vector.replicate 3 (Fdd.cold p)
  lastStep := Vector.replicate 2 p.reset.lastStep
  acsi := Vector.replicate 8 (AcsiDev.cold p)
  acsiDev := p.reset.acsiDev
  ax := p.reset.ax
  pins := p.reset.pins
  trace := []
  acsiPending := none
  serving := .E
  portE := { queue := [], replies := [] }
  portX := { queue := [], replies := [] }
  picks := { taken := 0, favour := none }
  mem := []
  disks := { image := [], ghost := [], layout := [], ioFail := [] }

/-- The machine right after cold boot with every parameter at its default (00_scope.md R8). -/
def State.reset : State := State.cold Params.default

end Sys2Proof.Machine
end

