-- ==== Sys2Proof/Machine/Flags.lean ====
section
/-! DEFINITION. Values computed from the state and never stored: time and address arithmetic (00_scope.md R13), status
and flag registers (10_state.md R28, R29, R35, R37, R40, R42, R44), the ACIA interrupt formula (42_acia.md R193), the error codes
and response flags (60_exceptions.md R351, 30_encoding.md R104). -/

namespace Sys2Proof

/-- The ERR field of an error (60_exceptions.md R351). -/
def ErrCode.code : ErrCode → BitVec 8
  | .illegalOp => 0x01
  | .reserved => 0x02
  | .priv => 0x03
  | .badSel => 0x04
  | .badIdx => 0x05
  | .busy => 0x06
  | .timeRegress => 0x07
  | .noFire => 0x08
  | .inert => 0x09
  | .value => 0x0a
  | .noDisk => 0x0b
  | .noSector => 0x0c
  | .notReady => 0x0d
  | .io => 0x0e

/-! ### Time and addresses, at the widths the parameters give (00_scope.md R8) -/

/-- A number of cycles as a ClockValue, modulo `2^CW`: also a product of cycles used as a `CW`-bit delay
(46_cross_family.md R330). -/
def Params.cycles (p : Params) (n : Nat) : Clock := BitVec.ofNat 64 (n % 2 ^ p.cw)

/-- `tadd(a, d)` (00_scope.md R13): wraps modulo `2^CW`. -/
def Params.tadd (p : Params) (a d : Clock) : Clock := p.cycles (a.toNat + d.toNat)

/-- `sdiff(a, b)` (00_scope.md R13): the difference modulo `2^CW`, read in two's complement. -/
def Params.sdiff (p : Params) (a b : Clock) : Int := ((a.toNat : Int) - b.toNat).bmod (2 ^ p.cw)

/-- The address `k` bytes on from another: each is taken modulo `2^DMA_ADDR_W` (20_memory.md R74). -/
def Params.addrAt (p : Params) (a : Addr) (k : Nat) : Addr := BitVec.ofNat 32 ((a.toNat + k) % 2 ^ p.dmaAddrW)

end Sys2Proof

namespace Sys2Proof.Machine

/-! ### Response flags -/

/-- `OK` (R104). -/
def OK : BitVec 8 := 1
/-- `VALID` (R104). -/
def VALID : BitVec 8 := 2
/-- `FIRE` (R104). -/
def FIRE : BitVec 8 := 4

/-! ### Engine -/

/-- A flag bit. -/
def flag {w : Nat} (b : Bool) (mask : BitVec w) : BitVec w := if b then mask else 0

/-- ENGINE `STATUS` (10_state.md R28). -/
def engineStatus (s : State) : BitVec 32 :=
  flag (s.disp != .idle) 0x00000001 ||| flag (s.disp == .waitAck) 0x00000002
    ||| (if s.disp = .waitAck then s.fireCb.setWidth 32 <<< 8 else 0)
    ||| flag s.pins.kbd 0x00010000 ||| flag s.pins.midi 0x00020000 ||| flag s.pins.disk 0x00040000

/-- Whether `c` is an identity with a pending entry. -/
def pendingAt (s : State) (c : CbId) : Bool := decide (c.val < s.par.ncb) && (s.ag[c]).isSome

/-- ENGINE `PENDING` (10_state.md R29): bit `c` is slot `c`'s `pending`. -/
def enginePending (s : State) : BitVec 32 := BitVec.ofFnLE fun c : Fin 32 => pendingAt s (c.castLE (by decide))

/-! ### ACIA -/

/-- The clock-divide factor as a number (10_state.md R33). -/
def ClockDivide.toNat : ClockDivide → Nat
  | .by1 => 1
  | .by16 => 16
  | .by64 => 64

/-- The interrupt formula (42_acia.md R193). -/
def Acia.irqFormula (a : Acia) : Bool := (a.tdre && a.txIrqEn) || (a.cr.getLsbD 7 && (a.rdrf || a.overrun))

/-- `SR` as read (10_state.md R35). -/
def Acia.sr (a : Acia) : Byte :=
  flag a.rdrf 0x01 ||| flag a.tdre 0x02 ||| flag a.overrun 0x20 ||| flag a.irq 0x80

/-- `FLAGS` (10_state.md R37). -/
def Acia.flags (a : Acia) : BitVec 16 :=
  flag a.lineBusyTx 0x0001 ||| flag a.lineBusyRx 0x0002 ||| flag a.txIrqEn 0x0004 ||| flag a.rxIrqEn 0x0008
    ||| flag a.overrun 0x0010 ||| flag a.irq 0x0020 ||| BitVec.ofNat 16 (a.clockDivide.toNat * 256)

/-- The cycles of one byte on a line (42_acia.md R194), before any wrap. -/
def Acia.byteCycles (p : Params) (a : Acia) : Nat := p.aciaFrameBits * a.clockDivide.toNat * p.aciaClkCycles

/-- `transmission_time` (42_acia.md R194), as a delay. -/
def Acia.transmissionTime (p : Params) (a : Acia) : Clock := p.cycles (a.byteCycles p)

/-! ### DMA -/

/-- `MCR[8]`, the direction: `true` is write, memory to device (43_dma.md R231). -/
def Dma.dirWrite (d : Dma) : Bool := d.mcr.getLsbD 8

/-- The status byte (10_state.md R40, 43_dma.md R244). -/
def Dma.status (d : Dma) : Byte := flag (!d.err) 0x01 ||| flag (d.sct != 0) 0x02 ||| flag d.drq 0x04

/-- `FIFOCTL` (10_state.md R42). -/
def Dma.fifoctl (d : Dma) : Byte :=
  BitVec.ofNat 8 d.idx.val ||| flag (d.sel == 1) 0x10 ||| flag d.drq 0x20 ||| flag d.err 0x40

/-! ### Floppy -/

/-- `Empty(d)` (44_floppy.md R264). -/
def Fdd.empty (f : Fdd) : Bool := f.disk.isNone

/-- Whether a transfer is in flight. -/
def Fdd.busy (f : Fdd) : Bool := f.reading || f.writing

/-- Floppy `FLAGS` (10_state.md R44). -/
def Fdd.flags (f : Fdd) : Byte :=
  flag f.motor 0x01 ||| flag f.reading 0x02 ||| flag f.writing 0x04 ||| flag f.empty 0x08 ||| flag f.singleSided 0x10
    ||| flag f.ghost 0x20

/-- The cycles of one rotation (44_floppy.md R261), before any wrap. -/
def Fdd.rotationCycles (p : Params) (f : Fdd) : Nat := f.cpb.toNat * p.fddBytesPerTrack

/-- `ROT(d)`, the rotation period (44_floppy.md R261), as a delay. -/
def Fdd.rotation (p : Params) (f : Fdd) : Clock := p.cycles (f.rotationCycles p)

/-- `n div d`, rounded down (46_cross_family.md R330); by 0, which the spec keeps from happening, a free value (log entry
27). -/
def quotient (n d : Nat) : Nat := if d = 0 then Config.quotientByZero n else n / d

/-- `n mod d` (46_cross_family.md R330); by 0 a free value (log entry 27). -/
def remainder (n d : Nat) : Nat := if d = 0 then Config.remainderByZero n else n % d

/-- `BytePosition(d)` at time `now` (44_floppy.md R276). When `t_last` lies after `now` the elapsed count is negative
and the position a free value (log entry 14); so it is with `cpb` or `BPT` 0 (log entry 27). -/
def Fdd.bytePosition (p : Params) (f : Fdd) (now : Clock) : Nat :=
  let elapsed := p.sdiff now f.tLast
  remainder (if 0 ≤ elapsed then quotient elapsed.toNat f.cpb.toNat else Config.bytePosAhead now f.tLast f.cpb)
    p.fddBytesPerTrack

/-! ### ACSI -/

/-- ACSIDEV `FLAGS` (30_encoding.md R116). -/
def AcsiDev.flags (a : AcsiDev) : Byte := flag a.present 0x01

end Sys2Proof.Machine
end

