-- ==== Sys2Proof/Machine/Memory.lean ====
section
/-! DEFINITION. Stores keyed by number, held as lists with strictly rising keys: system memory (20_memory.md R73), whose
list also holds no entry equal to what an unlisted byte reads as, and the sector stores behind the disk-image oracle. -/

namespace Sys2Proof.Machine

/-- What a store holds at a key. -/
def storeFind {α : Type} : List (Nat × α) → Nat → Option α
  | [], _ => none
  | (k, v) :: rest, a => if k = a then some v else storeFind rest a

/-- Put a value at a key, keeping the keys rising. -/
def storePut {α : Type} : List (Nat × α) → Nat → α → List (Nat × α)
  | [], a, x => [(a, x)]
  | (k, v) :: rest, a, x =>
    if a < k then (a, x) :: (k, v) :: rest
    else if a = k then (a, x) :: rest
    else (k, v) :: storePut rest a x

/-- Take a key out. -/
def storeDrop {α : Type} : List (Nat × α) → Nat → List (Nat × α)
  | [], _ => []
  | (k, v) :: rest, a => if k = a then rest else (k, v) :: storeDrop rest a

/-- The keys rise strictly, each above `lo`. -/
def storeRisesAbove {α : Type} : Option Nat → List (Nat × α) → Bool
  | _, [] => true
  | lo, (k, _) :: rest => (match lo with | none => true | some l => decide (l < k)) && storeRisesAbove (some k) rest

/-- The keys rise strictly. -/
def storeRises {α : Type} (m : List (Nat × α)) : Bool := storeRisesAbove none m

/-- The byte of memory at an address. -/
def Memory.read (m : List Host.Cell) (a : Addr) : Byte :=
  (storeFind m a.toNat).getD Config.unlistedByte

/-- Memory with a byte written. Writing what an unlisted byte reads as removes the entry. -/
def Memory.write (m : List Host.Cell) (a : Addr) (b : Byte) : List Host.Cell :=
  if b = Config.unlistedByte then storeDrop m a.toNat else storePut m a.toNat b

/-- The canonical form of memory with addresses of `w` bits: keys strictly rising and inside the address space, no entry
equal to what an unlisted byte reads as. -/
def Memory.wf (w : Nat) (m : List Host.Cell) : Bool :=
  storeRises m && m.all (fun c => decide (c.1 < 2 ^ w) && (c.2 != Config.unlistedByte))

/-- The key of a sector of an image: handle and number. -/
def sectorKey (h : Handle) (n : Sector) : Nat := h.toNat * 2 ^ 32 + n.toNat

/-- The first `size` bytes of a sector's contents. A byte that is not listed reads as `Config.unlistedByte`
(log entry 9); the length is the one the oracle's contract promises (44_floppy.md R273). -/
def fitBytes (size : Nat) (bytes : List Byte) : List Byte :=
  (bytes ++ List.replicate (size - bytes.length) Config.unlistedByte).take size

end Sys2Proof.Machine
end

