-- ==== Sys2Proof/Machine/Operands.lean ====
section
/-! DEFINITION. Operand assembly: SEL ranges (30_encoding.md R108(c)), the burst of CB_ADDBYTES (R106), the fields of an
ACSI command block (R119), the identities a chip owns (R118). -/

namespace Sys2Proof.Machine

/-- A SEL operand as one of `n` things, whose numbers stand in `Fin m`; `none` is out of range (R108(c)). -/
def index (n : Nat) {m : Nat} (sel : BitVec 8) : Option (Fin m) :=
  if h : sel.toNat < n ∧ sel.toNat < m then some ⟨sel.toNat, h.2⟩ else none

/-- Burst byte `j`: bits `8j+7:8j` of `PARAM ++ TIME` (R106). -/
def burstByte (burst : BitVec 96) (j : Nat) : Byte := burst.extractLsb' (8 * j) 8

/-- The first `len` bytes of a burst, from byte `j` on. -/
def burstBytesFrom (burst : BitVec 96) (j : Nat) : Nat → List Byte
  | 0 => []
  | len + 1 => burstByte burst j :: burstBytesFrom burst (j + 1) len

/-- The bytes of a burst of length `len` (R106). -/
def burstBytes (burst : BitVec 96) (len : Nat) : List Byte := burstBytesFrom burst 0 len

/-- The 48-bit block of a device's command buffer: the device number in the top three bits, which the claim took off
(45_acsi.md R303), then the low five bits of `cmd[0]` (log entry 26), then `cmd[1]` to `cmd[5]` (R119). -/
def acsiBlock (dev : Dev) (cmd : Vector Byte 6) : BitVec 48 :=
  (BitVec.ofNat 3 dev.val ++ cmd[0].setWidth 5 ++ cmd[1] ++ cmd[2] ++ cmd[3] ++ cmd[4] ++ cmd[5]).cast rfl

/-- `CB_ACIAi_TX` (R118). -/
def aciaTxId (i : Fin 2) : CbId := ⟨2 * i.val, by have := i.isLt; omega⟩

/-- `CB_ACIAi_RX` (R118). -/
def aciaRxId (i : Fin 2) : CbId := ⟨2 * i.val + 1, by have := i.isLt; omega⟩

/-- `CB_FDDd_INDEX` (R118). -/
def fddIndexId (d : Fin 2) : CbId := ⟨4 + d.val, by have := d.isLt; omega⟩

/-- `CB_FDDd_XFER` (R118). -/
def fddXferId (d : Fin 2) : CbId := ⟨6 + d.val, by have := d.isLt; omega⟩

/-- `CB_ACSI_BLOCK` (R118). -/
def acsiBlockId : CbId := 8

/-- `CB_EXTn` (R118): identity `NCB_INT + n`. -/
def extId (p : Params) (n : CbId) : CbId := Fin.ofNat 256 (p.ncbInt + n.val)

/-- The slot of drive `d`. -/
def driveSlot (d : Fin 2) : Fin 3 := d.castSucc

end Sys2Proof.Machine
end

