-- ==== Sys2Proof/Machine/Ops.lean ====
section
/-! DEFINITION. The operations the instructions share: answering a command and refusing one (30_encoding.md R103,
60_exceptions.md R350), the time of a command (40_agenda.md R131), the Agenda and its dispatcher (R133 to R137,
60_exceptions.md R359, R360), the interrupt pins (R355), the memory port (20_memory.md R74) and the disk-image oracle
(R78). -/

namespace Sys2Proof.Machine

/-- What an instruction's meaning answers. -/
abbrev Result := Host.Outcome State Fault Refusal

/-! ### Responses -/

/-- The response word (30_encoding.md R103). The bits of TIME above the `CW` bits of a ClockValue are zero. -/
def respWord (err flags rcb : BitVec 8) (data : BitVec 32) (time : Clock) : Word128 :=
  (err ++ flags ++ rcb ++ (0 : BitVec 8) ++ data ++ time).cast rfl

/-- A port after its oldest command has been answered (R100: one command at a time, the next after the response). -/
def PortIO.give (p : PortIO) (w : Word128) : PortIO := { queue := p.queue.tail, replies := p.replies ++ [w] }

/-- The state after the command in service has been answered with a word, on the port it came from (R103). -/
def State.answer (s : State) (w : Word128) : State :=
  match s.serving with
  | .E => { s with portE := s.portE.give w }
  | .X => { s with portX := s.portX.give w }

/-- `respond(0, flags, rcb, data, time)` (R103). -/
def respond (flags rcb : BitVec 8) (data : BitVec 32) (time : Clock) (s : State) : Result :=
  .next (s.answer (respWord 0 flags rcb data time))

/-- `respond(0, OK, 0, 0, 0)`. -/
def respondOk (s : State) : Result := respond OK 0 0 0 s

/-- `respond(0, OK|VALID, 0, data, 0)`. -/
def respondData (data : BitVec 32) (s : State) : Result := respond (OK ||| VALID) 0 data 0 s

/-- `respond(0, OK|VALID, 0, 0, time)`. -/
def respondTime (time : Clock) (s : State) : Result := respond (OK ||| VALID) 0 0 time s

/-- The response word of an error (30_encoding.md R103: all other fields are 0). -/
def errWord (e : ErrCode) : Word128 := respWord e.code 0 0 0 0

/-- The state after the command in service has been refused: the error word is given, nothing else changes
(60_exceptions.md R350). -/
def refuse (e : ErrCode) (s : State) : State := s.answer (errWord e)

/-- Taking a refusal, the PEE's synchronous exception: `raise ERR_x` (60_exceptions.md R350), and, in the state a
command's own pseudocode has reached, `respond(ERR_x, 0, 0, 0, 0)`. -/
def raise (e : ErrCode) (s : State) : Result := .next (refuse e s)

/-- The SEL check (60_exceptions.md R352, step 4): go on with the number, one of `n`, or refuse with ERR_BAD_SEL. -/
def select (n : Nat) {m : Nat} (sel : BitVec 8) (s : State) (body : Fin m → Result) : Result :=
  match index n sel with
  | none => raise .badSel s
  | some i => body i

/-! ### Time -/

/-- The common beginning of a time-carrying command (40_agenda.md R131): refuse a regress, else set `NOW` and go on. -/
def timed (now : Clock) (s : State) (body : State → Result) : Result :=
  if s.par.sdiff now s.now < 0 then raise .timeRegress s else body { s with now := now }

/-! ### Outputs -/

/-- `emit` (10_state.md R60). -/
def State.emit (s : State) (e : Event) : State := { s with trace := s.trace ++ [e] }

/-- The level of a pin (10_state.md R51). -/
def Pins.level (p : Pins) : IrqLine → Bool
  | .kbd => p.kbd
  | .midi => p.midi
  | .disk => p.disk

/-- The pins with one set. -/
def Pins.put (p : Pins) : IrqLine → Bool → Pins
  | .kbd, v => { p with kbd := v }
  | .midi, v => { p with midi := v }
  | .disk, v => { p with disk := v }

/-- `SetIrqPin(line, level)` (60_exceptions.md R355): silent when the pin has that level. -/
def State.setPin (s : State) (line : IrqLine) (level : Bool) : State :=
  if s.pins.level line = level then s
  else State.emit { s with pins := s.pins.put line level } (.irq line level)

/-! ### The Agenda (40_agenda.md) -/

/-- `schedule(c, d, p)` (R135). -/
def State.schedule (s : State) (c : CbId) (d : Clock) (p : Param) : State :=
  { s with ag := s.ag.set c (some { fireTime := s.par.tadd s.now d, param := p }) }

/-- `cancel(c)` (R137). -/
def State.cancel (s : State) (c : CbId) : State := { s with ag := s.ag.set c none }

/-- `due(c, t)` (R132). -/
def due (s : State) (t : Clock) (c : CbId) : Bool :=
  match s.ag[c] with
  | none => false
  | some e => s.par.sdiff e.fireTime t ≤ 0

/-- The set `D` of R133, in ascending identity: every identity below `NCB` that is due at `adv_target`. -/
def dueList (s : State) : List CbId := ((List.finRange 256).take s.par.ncb).filter (due s s.advTarget)

/-- Whether the entry of `c` fires no later than that of `d` (R132). -/
def noLater (s : State) (c d : CbId) : Bool :=
  match s.ag[c], s.ag[d] with
  | some x, some y => s.par.sdiff x.fireTime y.fireTime ≤ 0
  | _, _ => true

/-- The identities the dispatcher may fire next: those `c` with `earliest(c, D)` (R132, R134). -/
def candidates (s : State) : List CbId :=
  let D := dueList s
  D.filter fun c => D.all (noLater s c)

/-- The dispatcher's choice (R133, R134): the candidate, or, among several, a free one (log entry 5). `none` when
nothing is due. -/
def chooseDue (s : State) : Option (CbId × State) :=
  match candidates s with
  | [] => none
  | [c] => some (c, s)
  | c :: d :: rest =>
    some ((c :: d :: rest).getD (Config.tiePick s.picks.taken % (rest.length + 2)) c,
      { s with picks := { s.picks with taken := s.picks.taken + 1 } })

/-- Taking a callback, the PEE's asynchronous transfer of control (60_exceptions.md R359): the slot is cleared, then the
body runs with the entry. A callback with no entry does nothing (log entry 22; the dispatcher never runs one). -/
def dispatchEntry (c : CbId) (body : AgEntry → State → Result) (s : State) : Result :=
  match s.ag[c] with
  | none => .next s
  | some e => body e (s.cancel c)

/-- The return from an external callback (60_exceptions.md R360): the loop goes on, with the same `adv_target`. -/
def resumeDispatch (s : State) : Result := .next { s with disp := .scan }

/-- The end of the dispatch loop (R133): nothing is due, `disp <- IDLE` and the ADVANCE, or FIRE_ACK, is answered. -/
def finishDispatch (s : State) : State := State.answer { s with disp := .idle } (respWord 0 OK 0 0 0)

/-! ### The memory port (20_memory.md R74) -/

/-- Memory with the bytes of a list written at an address and up, wrapping modulo `2^DMA_ADDR_W`. -/
def Memory.writeBytes (p : Params) (m : List Host.Cell) (a : Addr) : List Byte → List Host.Cell
  | [] => m
  | b :: rest => Memory.writeBytes p (Memory.write m (p.addrAt a 0) b) (p.addrAt a 1) rest

/-- One event for each byte of a list, at an address and up. -/
def portEvents (p : Params) (event : Addr → Byte → Event) (a : Addr) : List Byte → List Event
  | [] => []
  | b :: rest => event (p.addrAt a 0) b :: portEvents p event (p.addrAt a 1) rest

/-- The 16 bytes of memory at an address. -/
def Memory.half (p : Params) (m : List Host.Cell) (a : Addr) : Vector Byte 16 :=
  Vector.ofFn fun k => Memory.read m (p.addrAt a k.val)

/-- `MemWrite(addr, 16, v)`. -/
def memWrite (a : Addr) (v : Vector Byte 16) (s : State) : State :=
  { s with
    mem := Memory.writeBytes s.par s.mem a v.toList
    trace := s.trace ++ portEvents s.par .memw a v.toList }

/-- `MemRead(addr, 16)`: the bytes are `Memory.half s.par s.mem addr`; the state has their events. -/
def memReadEvents (a : Addr) (s : State) : State :=
  { s with trace := s.trace ++ portEvents s.par .memr a (Memory.half s.par s.mem a).toList }

/-! ### The disk-image oracle (20_memory.md R78) -/

/-- Whether the coming fallible call fails (log entry 9). -/
def nextFails (s : State) : Bool := s.disks.ioFail.head?.getD false

/-- The state after a fallible call has been made. -/
def popFail (s : State) : State := { s with disks := { s.disks with ioFail := s.disks.ioFail.tail } }

/-- The sector of a track layout at a position. -/
def sectorAt (layout : List TrackSector) (h : Handle) (track : BitVec 8) (side : Bool) (pos : Nat) :
    Option (Sector × Nat) :=
  match layout with
  | [] => none
  | t :: rest =>
    if t.handle = h ∧ t.track = track ∧ t.side = side ∧ t.first ≤ pos ∧ pos ≤ t.last ∧ 1 ≤ t.size then
      some (t.sector, t.size)
    else sectorAt rest h track side pos

/-- `ImgSectorAt(h, track, side, pos)`. -/
def imgSectorAt (h : Handle) (track : BitVec 8) (side : Bool) (pos : Nat) (s : State) :
    Option (Sector × Nat) × State :=
  let r := sectorAt s.disks.layout h track side pos
  (r, s.emit (.imgSectorAt h track side pos r))

/-- `ImgExists(h, N)`. No rule of the spec makes this call. The answer is the oracle's, and the spec leaves it open for a
sector the state does not list, and for one listed short of its size: DESIGN CHOICE (log entry 9), "none" for the first
and the listed length for the second, although `imgRead` hands out full-size bytes for both. -/
def imgExists (h : Handle) (n : Sector) (s : State) : Option Nat × State :=
  let r := (storeFind s.disks.image (sectorKey h n)).map List.length
  (r, s.emit (.imgExists h n r))

/-- `ImgRead(h, N)` of a sector of `size` bytes: `none` is `fail`. -/
def imgRead (h : Handle) (n : Sector) (size : Nat) (s : State) : Option (List Byte) × State :=
  let r := if nextFails s then none else some (fitBytes size ((storeFind s.disks.image (sectorKey h n)).getD []))
  (r, (popFail s).emit (.imgRead h n r))

/-- The images with a sector written. -/
def putImage (h : Handle) (n : Sector) (bytes : List Byte) (s : State) : State :=
  { s with disks := { s.disks with image := storePut s.disks.image (sectorKey h n) bytes } }

/-- The overlays with a sector written. -/
def putGhost (h : Handle) (n : Sector) (bytes : List Byte) (s : State) : State :=
  { s with disks := { s.disks with ghost := storePut s.disks.ghost (sectorKey h n) bytes } }

/-- `ImgWrite(h, N, bytes)`: `true` is `ok`. -/
def imgWrite (h : Handle) (n : Sector) (bytes : List Byte) (s : State) : Bool × State :=
  let ok := !nextFails s
  (ok, (if ok then putImage h n bytes (popFail s) else popFail s).emit (.imgWrite h n bytes ok))

/-- `GhostHas(h, N)`. -/
def ghostHas (h : Handle) (n : Sector) (s : State) : Bool × State :=
  let r := (storeFind s.disks.ghost (sectorKey h n)).isSome
  (r, s.emit (.ghostHas h n r))

/-- `GhostRead(h, N)` of a sector of `size` bytes: `none` is `fail`. -/
def ghostRead (h : Handle) (n : Sector) (size : Nat) (s : State) : Option (List Byte) × State :=
  let r := if nextFails s then none else some (fitBytes size ((storeFind s.disks.ghost (sectorKey h n)).getD []))
  (r, (popFail s).emit (.ghostRead h n r))

/-- `GhostWrite(h, N, bytes)`: `true` is `ok`. -/
def ghostWrite (h : Handle) (n : Sector) (bytes : List Byte) (s : State) : Bool × State :=
  let ok := !nextFails s
  (ok, (if ok then putGhost h n bytes (popFail s) else popFail s).emit (.ghostWrite h n bytes ok))

end Sys2Proof.Machine
end

