-- ==== Sys2Proof/Machine/Acia.lean ====
section
/-! DEFINITION. The ACIA (42_acia.md): its procedures, the effects of its register accesses, ACIA_RXBYTE and the bodies
of its callbacks. Each procedure is first a function of one ACIA, then of the machine. -/

namespace Sys2Proof.Machine

/-- The pin of an instance (R191). -/
def aciaLine (i : Fin 2) : IrqLine := if i = 0 then .kbd else .midi

/-- The machine with one ACIA changed. -/
def State.modAcia (s : State) (i : Fin 2) (f : Acia → Acia) : State := { s with acia := s.acia.set i (f s.acia[i]) }

/-- `CheckIrq(i)` (R193): the interrupt flag is recomputed and the pin takes its level. -/
def checkIrq (i : Fin 2) (s : State) : State :=
  let s := s.modAcia i fun a => { a with irq := a.irqFormula }
  s.setPin (aciaLine i) (s.acia[i]).irq

/-- The flags `AciaReset` clears, and "transmitter ready" (R192). -/
def Acia.clearFlags (a : Acia) : Acia :=
  { a with
    rdrf := false
    tdre := true
    overrun := false
    txIrqEn := false
    rxIrqEn := false
    lineBusyTx := false
    lineBusyRx := false }

/-- `AciaReset(i)` (R192). -/
def aciaReset (i : Fin 2) (s : State) : State :=
  checkIrq i (((s.modAcia i Acia.clearFlags).cancel (aciaTxId i)).cancel (aciaRxId i))

/-- The clock divide a control value selects; 3 leaves it (R197). -/
def divideOf (v : Byte) (old : ClockDivide) : ClockDivide :=
  if v.extractLsb' 0 2 = 0 then .by1
  else if v.extractLsb' 0 2 = 1 then .by16
  else if v.extractLsb' 0 2 = 2 then .by64
  else old

/-- A control value latched (R197). -/
def Acia.control (v : Byte) (a : Acia) : Acia :=
  { a with
    cr := v
    clockDivide := divideOf v a.clockDivide
    txIrqEn := v.extractLsb' 5 2 == 1
    rxIrqEn := v.getLsbD 7 }

/-- `SetControl(i, v)` (R197); the divide value 3 is a master reset first (R198). -/
def setControl (i : Fin 2) (v : Byte) (s : State) : State :=
  let s := if v.extractLsb' 0 2 = 3 then aciaReset i s else s
  checkIrq i (s.modAcia i (Acia.control v))

/-- `TransmitTDR(i)` (R195). -/
def transmitTdr (i : Fin 2) (s : State) : State :=
  let s := checkIrq i (s.modAcia i fun a => { a with tdrs := a.tdr, tdre := true })
  let s := s.modAcia i fun a => { a with lineBusyTx := true }
  s.schedule (aciaTxId i) ((s.acia[i]).transmissionTime s.par) (BitVec.ofNat 32 i.val)

/-- `WriteTDR(i, v)` (R199, R200). -/
def writeTdr (i : Fin 2) (v : Byte) (s : State) : State :=
  let s := s.modAcia i fun a => { a with tdr := v, tdre := false, lastTxWrite := s.now }
  checkIrq i (if (s.acia[i]).lineBusyTx then s else transmitTdr i s)

/-- `ReadRDR(i)` (R203): what the read does; the value is `RDR`. -/
def readRdr (i : Fin 2) (s : State) : State :=
  checkIrq i (s.modAcia i fun a => { a with rdrf := false, overrun := false })

/-- `OutputByte(i, b)` (R207). -/
def outputByte (i : Fin 2) (b : Byte) (s : State) : State := s.emit (.txout i b)

/-- `AciaTxDone(i)` (R206). -/
def aciaTxDone (i : Fin 2) (s : State) : State :=
  let s := outputByte i (s.acia[i]).tdrs s
  checkIrq i
    (if (s.acia[i]).tdre then s.modAcia i fun a => { a with lineBusyTx := false } else transmitTdr i s)

/-- A received byte delivered, or lost to an overrun (R209). -/
def Acia.deliver (a : Acia) : Acia :=
  if a.rdrf then { a with lineBusyRx := false, overrun := true }
  else { a with lineBusyRx := false, rdr := a.rdrs, rdrf := true }

/-- `AciaRxDone(i)` (R209). -/
def aciaRxDone (i : Fin 2) (s : State) : State := checkIrq i (s.modAcia i Acia.deliver)

/-- The effect of an accepted ACIA_RXBYTE (R208). -/
def receiveByte (i : Fin 2) (byte : Byte) (s : State) : State :=
  let s := s.modAcia i fun a => { a with rdrs := byte, lineBusyRx := true }
  s.schedule (aciaRxId i) ((s.acia[i]).transmissionTime s.par) (BitVec.ofNat 32 i.val)

/-- ACIA_RXBYTE (R208): refused while the receive line is busy, `NOW` staying updated. -/
def execAciaRxbyte (inst : BitVec 8) (byte : Byte) (now : Clock) (s : State) : Result :=
  select 2 inst s fun (i : Fin 2) =>
    timed now s fun s => if (s.acia[i]).lineBusyRx then raise .busy s else respondOk (receiveByte i byte s)

end Sys2Proof.Machine
end

