-- ==== Sys2Proof/Machine/Dma.lean ====
section
/-! DEFINITION. The DMA controller (43_dma.md): its register writes, the FIFO, and `Drq` in its two directions. -/

namespace Sys2Proof.Machine

/-- The machine with the DMA controller changed. -/
def State.modDma (s : State) (f : Dma → Dma) : State := { s with dma := f s.dma }

/-- `DmaReset()` (R232). -/
def Dma.clear (d : Dma) : Dma := { d with sct := 0, bct := 0, idx := 0, sel := 0, drq := false, err := false }

/-- `WriteMCR(v)` (R233): a change of bit 8 resets the controller. -/
def Dma.writeMcr (v : BitVec 16) (d : Dma) : Dma :=
  let d := if v.getLsbD 8 = d.mcr.getLsbD 8 then d else d.clear
  { d with mcr := v }

/-- `DmaError()` (R243). -/
def dmaError (s : State) : State := s.modDma fun d => { d with err := true }

/-- `1 - sel`. -/
def otherHalf (h : Fin 2) : Fin 2 := if h = 0 then 1 else 0

/-- `CountHalf()` (R239). -/
def Dma.countHalf (p : Params) (d : Dma) : Dma :=
  if d.bct + 16 = p.dmaSectorBytes then { d with bct := 0, sct := d.sct - 1 }
  else { d with bct := d.bct + 16 }

/-- `TransferBytes()` (R239): the full half `sel` goes to memory. -/
def transferBytes (s : State) : State :=
  (memWrite s.dma.addr (s.dma.fifo[s.dma.sel]) s).modDma fun d =>
    Dma.countHalf s.par { d with addr := s.par.addrAt d.addr 16, sel := otherHalf d.sel }

/-- `RequestTransfer()` (R239): the half `sel` is filled from memory. -/
def requestTransfer (s : State) : State :=
  (memReadEvents s.dma.addr s).modDma fun d =>
    { d with fifo := d.fifo.set d.sel (Memory.half s.par s.mem d.addr), addr := s.par.addrAt d.addr 16 }

/-- A byte put at the FIFO index (R238). -/
def Dma.putByte (b : Byte) (d : Dma) : Dma := { d with fifo := d.fifo.set d.sel ((d.fifo[d.sel]).set d.idx b) }

/-- `AddToFifo(b)` (R238). -/
def addToFifo (b : Byte) (s : State) : State :=
  let s := s.modDma (Dma.putByte b)
  if s.dma.idx = 15 then transferBytes (s.modDma fun d => { d with idx := 0 })
  else s.modDma fun d => { d with idx := d.idx + 1 }

/-- `DrqIn(b)` (R237): a byte from a device, accepted or refused (R241, R242). -/
def drqIn (b : Byte) (s : State) : State :=
  if s.dma.dirWrite then s.modDma fun d => { d with drq := true, err := true }
  else if s.dma.sct = 0 then s.modDma fun d => { d with drq := true }
  else (addToFifo b s).modDma fun d => { d with drq := false }

/-- The FIFO index after a byte is taken (R240). -/
def Dma.takeByte (p : Params) (d : Dma) : Dma :=
  if d.idx = 15 then Dma.countHalf p { d with idx := 0, sel := otherHalf d.sel } else { d with idx := d.idx + 1 }

/-- The state in which `DrqOut` takes its byte: a half is fetched when its first byte is wanted (R240). -/
def fillHalf (s : State) : State := if s.dma.idx = 0 then requestTransfer s else s

/-- The byte at the FIFO index. -/
def Dma.current (d : Dma) : Byte := (d.fifo[d.sel])[d.idx]

/-- `DrqOut()` (R240): a byte for a device, or none (R241, R242). -/
def drqOut (s : State) : Option Byte × State :=
  if s.dma.dirWrite then
    if s.dma.sct = 0 then (none, s.modDma fun d => { d with drq := true })
    else
      let s := fillHalf s
      (some s.dma.current, s.modDma fun d => { d.takeByte s.par with drq := false })
  else (none, s.modDma fun d => { d with drq := true, err := true })

/-- `DrqIn` of each byte of a list, in order; refusals are ignored. -/
def drqInAll : List Byte → State → State
  | [], s => s
  | b :: rest, s => drqInAll rest (drqIn b s)

/-- `DrqOut` a number of times: the answers in order. -/
def drqOutAll : Nat → State → List (Option Byte) × State
  | 0, s => ([], s)
  | n + 1, s =>
    let r := drqOut s
    let rest := drqOutAll n r.2
    (r.1 :: rest.1, rest.2)

/-- The bytes, if none is missing (44_floppy.md R275, 45_acsi.md R316). -/
def allBytes : List (Option Byte) → Option (List Byte)
  | [] => some []
  | none :: _ => none
  | some b :: rest => (allBytes rest).map (b :: ·)

/-- The bytes of a sector asked of the DMA: all the calls are made, and the bytes are there only if none was refused
(44_floppy.md R275, 45_acsi.md R316). -/
def drqOutBytes (n : Nat) (s : State) : Option (List Byte) × State :=
  let r := drqOutAll n s
  (allBytes r.1, r.2)

end Sys2Proof.Machine
end

