-- ==== Sys2Proof/Machine/Acsi.lean ====
section
/-! DEFINITION. The ACSI controller (45_acsi.md): attaching, the bus byte, the commands a device dispatches, block
transfers. A bus byte that completes a command leaves the device in phase 6 with the dispatch owed; the device's command
then runs as the next step on port E, and answers the bus write (log entry 2). -/

namespace Sys2Proof.Machine

/-- The machine with one ACSI device changed. -/
def State.modAcsi (s : State) (k : Dev) (f : AcsiDev → AcsiDev) : State :=
  { s with acsi := s.acsi.set k (f s.acsi[k]) }

/-! ### Attachment (R301, R302) -/

/-- ACSI_ATTACH (R301). -/
def execAcsiAttach (dev : BitVec 8) (handle : Handle) (sectors : BitVec 32) (s : State) : Result :=
  select s.par.acsiNdev dev s fun (k : Dev) =>
    if (s.acsi[k]).phase ≠ 7 then raise .busy s
    else
      respondOk (s.modAcsi k fun a =>
        { a with
          present := true
          image := some handle
          sectors := sectors
          status := s.par.acsiStOk
          error := s.par.acsiENone
          curLba := 0 })

/-- ACSI_DETACH (R302). -/
def execAcsiDetach (dev : BitVec 8) (s : State) : Result :=
  select s.par.acsiNdev dev s fun (k : Dev) =>
    if (s.acsi[k]).phase ≠ 7 then raise .busy s
    else respondOk (s.modAcsi k fun a => { a with present := false, image := none, sectors := 0 })

/-! ### The bus byte (R303) -/

/-- A byte taken into the command buffer (R303), in phases 0 to 5. -/
def AcsiDev.take (v : Byte) (a : AcsiDev) : AcsiDev :=
  if h : a.phase.val < 6 then { a with cmd := a.cmd.set a.phase.val v h, phase := a.phase + 1 } else a

/-- The claim: the byte is command byte 0, and the device is in phase 1 (R303). -/
def AcsiDev.claim (v : Byte) (a : AcsiDev) : AcsiDev := { a with cmd := a.cmd.set 0 (v &&& 0x1f), phase := 1 }

/-- The device a byte names when the bus is free (R303): none when the number is not below `ACSI_NDEV`. -/
def namedDevice (p : Params) (v : Byte) : Option Dev := index p.acsiNdev (v >>> 5)

/-- `AcsiBusWrite(v)` (R303). The sixth byte leaves the dispatch owed and the bus write unanswered. -/
def acsiBusWrite (v : Byte) (s : State) : Result :=
  let o := s.acsiDev
  if (s.acsi[o]).phase.val ≤ 5 then
    let s := s.modAcsi o (AcsiDev.take v)
    if (s.acsi[o]).phase = 6 then .next { s with acsiPending := some o } else respondOk s
  else if (s.acsi[o]).phase = 6 then respondOk s
  else match namedDevice s.par v with
    | none => respondOk s
    | some k =>
      if (s.acsi[k]).present then respondOk (State.modAcsi { s with acsiDev := k } k (AcsiDev.claim v)) else respondOk s

/-! ### Dispatch (R305) and Finish (R306) -/

/-- The device's status and error code set. -/
def acsiReport (k : Dev) (status error : Byte) (s : State) : State :=
  s.modAcsi k fun a => { a with status := status, error := error }

/-- The beginning of `Dispatch(k)` for a command that clears status and error (R305). -/
def acsiBegin (k : Dev) (s : State) : State := acsiReport k s.par.acsiStOk s.par.acsiENone s

/-- The beginning of `Dispatch(k)` for request-sense, which keeps the error code (R305). -/
def acsiBeginSense (k : Dev) (s : State) : State :=
  s.modAcsi k fun a => { a with status := s.par.acsiStOk }

/-- `Finish(k)` (R306). -/
def acsiFinish (k : Dev) (s : State) : State :=
  (s.modAcsi k fun a => { a with phase := 7 }).setPin .disk true

/-- The end of the bus write that dispatched the command: it is answered. -/
def acsiAnswer (s : State) : Result := respondOk { s with acsiPending := none }

/-! ### Block transfers (R316 to R320) -/

/-- A failed block: status and error code (R316). -/
def blockFailed (k : Dev) (error : Byte) (s : State) : Bool × State :=
  (false, acsiReport k s.par.acsiStErr error s)

/-- `cur_lba <- n`, cut to its 24 bits; a number beyond them leaves a free value (R316; log entry 13). -/
def curLbaOf (n : Sector) : BitVec 24 := if n.toNat < 2 ^ 24 then n.setWidth 24 else Config.curLbaBeyond n.toNat

/-- A block moved: the address and the count of what is left go on (R316). -/
def blockMoved (k : Dev) (s : State) : Bool × State :=
  let next := s.ax.lba + 1
  (true, State.modAcsi { s with ax := { s.ax with lba := next, left := s.ax.left - 1 } } k fun a =>
    { a with curLba := curLbaOf next })

/-- `ImgRead` of a device's block. A device with no image, which no reachable transfer has (R302), fails without a call
(log entry 18). -/
def readBlock (k : Dev) (s : State) : Option (List Byte) × State :=
  match (s.acsi[k]).image with
  | none => (none, s)
  | some h => imgRead h s.ax.lba s.par.acsiBlockBytes s

/-- `ImgWrite` of a device's block `n`; a device with no image fails without a call (log entry 18). -/
def writeBlock (k : Dev) (n : Sector) (bytes : List Byte) (s : State) : Bool × State :=
  match (s.acsi[k]).image with
  | none => (false, s)
  | some h => imgWrite h n bytes s

/-- The read half of `MoveBlock(k)`, after the oracle's answer (R316): refusals of the DMA are ignored. -/
def moveIn (k : Dev) (r : Option (List Byte) × State) : Bool × State :=
  match r.1 with
  | none => blockFailed k r.2.par.acsiERead (dmaError r.2)
  | some data => blockMoved k (drqInAll data r.2)

/-- The write half of `MoveBlock(k)`, after the bytes were asked of the DMA (R316). -/
def moveOut (k : Dev) (r : Option (List Byte) × State) : Bool × State :=
  match r.1 with
  | none => blockFailed k r.2.par.acsiEWrite r.2
  | some bytes =>
    let w := writeBlock k r.2.ax.lba bytes r.2
    if w.1 then blockMoved k w.2 else blockFailed k w.2.par.acsiEWrite (dmaError w.2)

/-- `MoveBlock(k)` (R316): whether it went well, and the state. -/
def moveBlock (k : Dev) (s : State) : Bool × State :=
  match s.ax.dir with
  | .read => moveIn k (readBlock k s)
  | .write => moveOut k (drqOutBytes s.par.acsiBlockBytes s)

/-- `while ax_left > 0 and MoveBlock(k) = ok`, `n` being `ax_left` (R320). -/
def moveBlocks (k : Dev) : Nat → State → State
  | 0, s => s
  | n + 1, s =>
    let r := moveBlock k s
    if r.1 then moveBlocks k n r.2 else r.2

/-- `ax_left <- 0` and `Finish(k)`: the end of a transfer (R319, R320). -/
def endTransfer (k : Dev) (s : State) : State := acsiFinish k { s with ax := { s.ax with left := 0 } }

/-- `StartTransfer(k, dir)` (R320). -/
def startTransfer (k : Dev) (dir : Dir) (lba : BitVec 24) (count : Byte) (s : State) : State :=
  if lba.toNat + count.toNat > (s.acsi[k]).sectors.toNat then
    acsiFinish k (acsiReport k s.par.acsiStErr s.par.acsiEAddr s)
  else
    let s := State.modAcsi { s with ax := { dir := dir, lba := lba.setWidth 32, left := count.toNat } } k fun a =>
      { a with curLba := lba }
    if count = 0 then acsiFinish k s
    else if s.cfg.getLsbD 0 then s.schedule acsiBlockId s.par.acsiBlockCycles (BitVec.ofNat 32 k.val)
    else endTransfer k (moveBlocks k count.toNat s)

/-- `AcsiBlockDone(k)` with the entry's fire time (R319). -/
def acsiBlockDone (k : Dev) (ft : Clock) (s : State) : State :=
  let r := moveBlock k s
  if r.1 ∧ r.2.ax.left > 0 then
    r.2.schedule acsiBlockId (s.par.tadd ft s.par.acsiBlockCycles - r.2.now) (BitVec.ofNat 32 k.val)
  else endTransfer k r.2

/-! ### The commands (R307 to R315) -/

/-- The sectors of the image filled one by one, from `n` on, stopping at the first failure (R309). -/
def formatSectors (k : Dev) : Nat → Sector → State → State
  | 0, _, s => s
  | left + 1, n, s =>
    let w := writeBlock k n (List.replicate s.par.acsiBlockBytes Config.acsiFill) s
    if w.1 then formatSectors k left (n + 1) w.2
    else dmaError (acsiReport k s.par.acsiStErr s.par.acsiEWrite w.2)

/-- The identity string of a device (R313). -/
def inquiryBytes (p : Params) (k : Dev) : List Byte :=
  (List.range p.acsiInquiryBytes).map (Config.acsiInquiry k.val)

/-- The sense answer of a device (R308): its error code, then zeros. -/
def senseBytes (p : Params) (a : AcsiDev) : List Byte :=
  (List.range p.acsiSenseBytes).map fun j => if j = 0 then a.error else 0

/-- ACSI_READY (R307). -/
def execAcsiReady (dev : Dev) (_lba : BitVec 24) (_count _ctrl : Byte) (s : State) : Result :=
  acsiAnswer (acsiFinish dev (acsiBegin dev s))

/-- ACSI_REQUEST_SENSE (R308). -/
def execAcsiRequestSense (dev : Dev) (_lba : BitVec 24) (_count _ctrl : Byte) (s : State) : Result :=
  let s := acsiBeginSense dev s
  let s := drqInAll (senseBytes s.par s.acsi[dev]) s
  acsiAnswer (acsiFinish dev (s.modAcsi dev fun a => { a with error := s.par.acsiENone }))

/-- ACSI_FORMAT (R309). -/
def execAcsiFormat (dev : Dev) (_lba : BitVec 24) (_count _ctrl : Byte) (s : State) : Result :=
  let s := acsiBegin dev s
  acsiAnswer (acsiFinish dev (formatSectors dev (s.acsi[dev]).sectors.toNat 0 s))

/-- ACSI_READ (R310). -/
def execAcsiRead (dev : Dev) (lba : BitVec 24) (count _ctrl : Byte) (s : State) : Result :=
  acsiAnswer (startTransfer dev .read lba count (acsiBegin dev s))

/-- ACSI_WRITE (R311). -/
def execAcsiWrite (dev : Dev) (lba : BitVec 24) (count _ctrl : Byte) (s : State) : Result :=
  acsiAnswer (startTransfer dev .write lba count (acsiBegin dev s))

/-- ACSI_SEEK (R312). -/
def execAcsiSeek (dev : Dev) (lba : BitVec 24) (_count _ctrl : Byte) (s : State) : Result :=
  let s := acsiBegin dev s
  let s := if lba.toNat ≥ (s.acsi[dev]).sectors.toNat then acsiReport dev s.par.acsiStErr s.par.acsiEAddr s
    else s.modAcsi dev fun a => { a with curLba := lba }
  acsiAnswer (acsiFinish dev s)

/-- ACSI_INQUIRY (R313). -/
def execAcsiInquiry (dev : Dev) (_lba : BitVec 24) (_count _ctrl : Byte) (s : State) : Result :=
  acsiAnswer (acsiFinish dev (drqInAll (inquiryBytes s.par dev) (acsiBegin dev s)))

/-- ACSI_MODE_SELECT (R314): the bytes are discarded. -/
def execAcsiModeSelect (dev : Dev) (_lba : BitVec 24) (count _ctrl : Byte) (s : State) : Result :=
  acsiAnswer (acsiFinish dev (drqOutAll count.toNat (acsiBegin dev s)).2)

/-- ACSI_INVALID (R315). -/
def execAcsiInvalid (dev : Dev) (_op : BitVec 5) (_lba : BitVec 24) (_count _ctrl : Byte)
    (s : State) : Result :=
  acsiAnswer (acsiFinish dev (acsiReport dev s.par.acsiStErr s.par.acsiEOpcode s))

end Sys2Proof.Machine
end

