-- ==== Sys2Proof/Machine/Buffer.lean ====
section
/-! DEFINITION. The CircularBuffer commands (41_circular_buffer.md R161 to R173). Each is one critical section (R163):
a function of the buffer that gives the buffer after and the response word. -/

namespace Sys2Proof.Machine

/-! ### One buffer -/

/-- `(wr - rd - 1) mod cap`, the number of unread bytes (10_state.md R31(b)); `rd` is an index of the store, so the
subtraction does not go below zero once `cap` is added (R175). -/
def CircBuf.count (c : CircBuf) : Nat := (c.wr + c.cap - 1 - c.rd) % c.cap

/-- `(rd + 1) mod cap`, the slot of the oldest unread byte (R31(e)). -/
def CircBuf.next (c : CircBuf) : Nat := (c.rd + 1) % c.cap

/-- The store with bytes written from a slot on, modulo `cap` (R168). -/
def burstInto (cap : Nat) (store : List (Option Byte)) (slot : Nat) : List Byte → List (Option Byte)
  | [] => store
  | b :: rest => burstInto cap (store.set (slot % cap) (some b)) (slot + 1) rest

/-- A fresh buffer of capacity `size`, its flag held (R164). A size that `CB_MAXCAP` admits is stored whole, also where it
needs more than the 17 bits of `cap` (10_state.md R30), which only a `CB_MAXCAP` outside `Params.Ok` admits: DESIGN CHOICE
(log entry 6). -/
def CircBuf.create (size : Nat) : CircBuf where
  cap := size
  store := List.replicate size none
  rd := 0
  wr := 1
  mx := true

/-- The body of CB_DESTROY (R165). -/
def CircBuf.destroy (c : CircBuf) : CircBuf := { c with cap := 0, store := [], rd := 0, wr := 0 }

/-- The body of CB_RESET (R166): an inert buffer stays as it is. -/
def CircBuf.rewind (c : CircBuf) : CircBuf := if c.cap = 0 then c else { c with rd := 0, wr := 1 }

/-- A byte added (R167): on overflow the read cursor is moved to the write cursor. -/
def CircBuf.addByte (c : CircBuf) (byte : Byte) : CircBuf :=
  let wr := (c.wr + 1) % c.cap
  { c with
    store := c.store.set c.wr (some byte)
    wr := wr
    rd := if c.wr = c.rd then wr else c.rd }

/-- A burst added (R168). -/
def CircBuf.addBytes (c : CircBuf) (bytes : List Byte) : CircBuf :=
  let wr := (c.wr + bytes.length) % c.cap
  { c with
    store := burstInto c.cap c.store c.wr bytes
    wr := wr
    rd := if bytes.length > c.cap - 1 - c.count then wr else c.rd }

/-- The oldest unread byte, if there is one (R170). A slot that nothing has written, which no reachable state reads
(10_state.md R58), gives a free value (log entry 15). -/
def CircBuf.oldest (c : CircBuf) : Option Byte :=
  if c.next = c.wr then none else some ((c.store.getD c.next none).getD (Config.unwrittenByte c.next))

/-- The unread bytes, oldest first: slot `(rd + 1) mod cap` up to slot `(wr - 1) mod cap` (10_state.md R31(e)), the
abstract content `q` of R32. -/
def CircBuf.content (c : CircBuf) : List (Option Byte) :=
  (List.range c.count).map fun j => c.store.getD ((c.rd + 1 + j) % c.cap) none

/-! ### The critical section -/

/-- What a critical section answers: `respond(0, flags, 0, data, 0)`. -/
def cbWord (flags : BitVec 8) (data : BitVec 32) : Word128 := respWord 0 flags 0 data 0

/-- The three steps of R163. While the flag is 1 the command waits: it stays at the head of its port and nothing changes
(70_reset_and_hazards.md R403; log entry 12). -/
def critical (b : BufId) (body : CircBuf → CircBuf × Word128) (s : State) : Result :=
  let c := s.cb[b]
  if c.mx then .next s
  else
    let r := body { c with mx := true }
    .next (State.answer { s with cb := s.cb.set b { r.1 with mx := false } } r.2)

/-- The inertness test, made with the flag held (R161). -/
def unlessInert (body : CircBuf → CircBuf × Word128) (c : CircBuf) : CircBuf × Word128 :=
  if c.cap = 0 then (c, errWord .inert) else body c

/-- A command that tests inertness and has no check of its own before the flag. -/
def onBuffer (buf : BitVec 8) (body : CircBuf → CircBuf × Word128) (s : State) : Result :=
  select s.par.nbuf buf s fun (b : BufId) => critical b (unlessInert body) s

/-! ### The commands -/

/-- CB_CREATE (R164): the size is checked before the flag is taken. What a size above 17 bits becomes, where `CB_MAXCAP` admits
one, is `CircBuf.create`'s (log entry 6). -/
def execCbCreate (buf : BitVec 8) (size : BitVec 32) (s : State) : Result :=
  select s.par.nbuf buf s fun (b : BufId) =>
    if size.toNat < 2 ∨ size.toNat > s.par.cbMaxcap then raise .value s
    else critical b (fun _ => (CircBuf.create size.toNat, cbWord OK 0)) s

/-- CB_DESTROY (R165). -/
def execCbDestroy (buf : BitVec 8) (s : State) : Result :=
  select s.par.nbuf buf s fun (b : BufId) => critical b (fun c => (c.destroy, cbWord OK 0)) s

/-- CB_RESET (R166). -/
def execCbReset (buf : BitVec 8) (s : State) : Result :=
  select s.par.nbuf buf s fun (b : BufId) => critical b (fun c => (c.rewind, cbWord OK 0)) s

/-- CB_ADDBYTE (R167): `OK = 0` on overflow. -/
def execCbAddbyte (buf : BitVec 8) (byte : Byte) (s : State) : Result :=
  onBuffer buf (fun c => (c.addByte byte, cbWord (if c.wr = c.rd then 0 else OK) 0)) s

/-- CB_ADDBYTES (R168): the length is checked against `CB_BURST_MAX` before the flag is taken and against the capacity
after. -/
def execCbAddbytes (buf : BitVec 8) (len : BitVec 16) (burst : BitVec 96) (s : State) : Result :=
  select s.par.nbuf buf s fun (b : BufId) =>
    if len.toNat > s.par.cbBurstMax then raise .value s
    else
      critical b (unlessInert fun c =>
        if len.toNat ≥ c.cap then (c, errWord .value)
        else
          (c.addBytes (burstBytes burst len.toNat), cbWord (if len.toNat > c.cap - 1 - c.count then 0 else OK) 0)) s

/-- CB_READBYTE (R170): the read without moving. -/
def execCbReadbyte (buf : BitVec 8) (s : State) : Result :=
  onBuffer buf (fun c =>
    match c.oldest with
    | none => (c, cbWord 0 0)
    | some v => (c, cbWord (OK ||| VALID) (v.setWidth 32))) s

/-- CB_NEXTBYTE (R171): the read cursor moves by one if a byte is there. -/
def execCbNextbyte (buf : BitVec 8) (s : State) : Result :=
  onBuffer buf (fun c => if c.next = c.wr then (c, cbWord 0 0) else ({ c with rd := c.next }, cbWord OK 0)) s

/-- CB_AREBYTES (R172). -/
def execCbArebytes (buf : BitVec 8) (s : State) : Result :=
  onBuffer buf (fun c => if c.next = c.wr then (c, cbWord 0 0) else (c, cbWord OK 1)) s

/-- CB_COUNT (R173). -/
def execCbCount (buf : BitVec 8) (s : State) : Result :=
  onBuffer buf (fun c => (c, cbWord (OK ||| VALID) (BitVec.ofNat 32 c.count))) s

end Sys2Proof.Machine
end

