-- ==== Sys2Proof/Machine/Floppy.lean ====
section
/-! DEFINITION. The floppy drives (44_floppy.md): mounting, motor, head, sector transfers, conversions, and the bodies of
the drives' callbacks. -/

namespace Sys2Proof.Machine

/-- The machine with one floppy slot changed. -/
def State.modFdd (s : State) (d : Fin 3) (f : Fdd → Fdd) : State := { s with fdd := s.fdd.set d (f s.fdd[d]) }

/-! ### Mounting (R262, R263) -/

/-- The slot with a disk in it (R262); slot 2 has no condition to clear. -/
def Fdd.mount (handle : Handle) (singleSided ghost : Bool) (slot : Fin 3) (f : Fdd) : Fdd :=
  { f with
    disk := some handle
    singleSided := singleSided
    ghost := ghost
    cond := if slot.val < 2 then 0 else f.cond }

/-- The slot with no disk in it (R263). -/
def Fdd.unmount (f : Fdd) : Fdd := { f with disk := none, singleSided := false, ghost := false }

/-- FDD_MOUNT (R262). -/
def execFddMount (slot : BitVec 8) (handle : Handle) (singleSided ghost : Bool) (s : State) : Result :=
  select 3 slot s fun (d : Fin 3) =>
    if d.val < 2 ∧ (s.fdd[d]).busy then raise .busy s
    else respondOk (s.modFdd d (Fdd.mount handle singleSided ghost d))

/-- FDD_UNMOUNT (R263). -/
def execFddUnmount (slot : BitVec 8) (s : State) : Result :=
  select 3 slot s fun (d : Fin 3) =>
    if d.val < 2 ∧ (s.fdd[d]).busy then raise .busy s
    else respondOk (s.modFdd d Fdd.unmount)

/-! ### Motor and index pulse (R266, R268) -/

/-- The motor switched on: this moment is an index position, and the first pulse is scheduled (R266). -/
def motorOn (d : Fin 2) (s : State) : State :=
  let rot := (s.fdd[driveSlot d]).rotation s.par
  let s := s.modFdd (driveSlot d) fun f => { f with motor := true, tLast := s.now, tNext := s.par.tadd s.now rot }
  s.schedule (fddIndexId d) rot (BitVec.ofNat 32 d.val)

/-- The motor switched off (R266). -/
def motorOff (d : Fin 2) (s : State) : State :=
  (s.modFdd (driveSlot d) fun f => { f with motor := false }).cancel (fddIndexId d)

/-- FDD_MOTOR (R266): asking for the present state changes nothing. -/
def execFddMotor (drive : BitVec 8) (on : Bool) (now : Clock) (s : State) : Result :=
  select 2 drive s fun (d : Fin 2) =>
    timed now s fun s =>
      let f := s.fdd[driveSlot d]
      if on = f.motor then respondOk s
      else if on then respondOk (motorOn d s)
      else if f.busy then raise .busy s
      else respondOk (motorOff d s)

/-- `IndexPulse(d)` with the entry's fire time (R268): the period runs from fire time to fire time. -/
def indexPulse (d : Fin 2) (ft : Clock) (s : State) : State :=
  let next := s.par.tadd ft ((s.fdd[driveSlot d]).rotation s.par)
  let s := s.modFdd (driveSlot d) fun f => { f with tLast := ft, tNext := next }
  (s.schedule (fddIndexId d) (next - s.now) (BitVec.ofNat 32 d.val)).emit (.index d)

/-! ### Head movement (R271) -/

/-- The track after a step: clamped to `0..FDD_MAX_TRACK` (R271). -/
def stepTrack (p : Params) (track : BitVec 8) (dir : Bool) : BitVec 8 :=
  if dir then BitVec.ofNat 8 (min (track.toNat + 1) p.fddMaxTrack.toNat) else BitVec.ofNat 8 (track.toNat - 1)

/-- The effect of an accepted FDD_STEP. -/
def stepHead (d : Fin 2) (dir : Bool) (s : State) : State :=
  { s.modFdd (driveSlot d) fun f => { f with track := stepTrack s.par f.track dir } with
    lastStep := s.lastStep.set d (some s.now) }

/-- FDD_STEP (R271): the answer carries the track. -/
def execFddStep (drive : BitVec 8) (dir : Bool) (now : Clock) (s : State) : Result :=
  select 2 drive s fun (d : Fin 2) =>
    timed now s fun s =>
      if (s.fdd[driveSlot d]).busy then raise .busy s
      else
        let s := stepHead d dir s
        respondData ((s.fdd[driveSlot d]).track.setWidth 32) s

/-! ### Read and write (R273 to R275) -/

/-- The drive's condition set. -/
def setCond (d : Fin 2) (v : Byte) (s : State) : State := s.modFdd (driveSlot d) fun f => { f with cond := v }

/-- The five checks FDD_READ and FDD_WRITE share (R273), then the body with the disk and the oracle's sector number and
size. -/
def atSector (d : Fin 2) (side : Bool) (s : State) (body : Handle → Sector → Nat → State → Result) : Result :=
  let f := s.fdd[driveSlot d]
  match f.disk with
  | none => raise .noDisk (setCond d 1 s)
  | some h =>
    if f.busy then raise .busy s
    else if f.motor = false then raise .notReady s
    else if f.singleSided ∧ side then raise .noSector (setCond d 2 s)
    else
      let r := imgSectorAt h f.track side (f.bytePosition s.par s.now) s
      match r.1 with
      | none => raise .noSector (setCond d 2 r.2)
      | some (n, size) => body h n size r.2

/-- The bytes of the sector, from the overlay if there is one and it has the sector, else from the image (R273, R279). -/
def fetchSector (d : Fin 2) (h : Handle) (n : Sector) (size : Nat) (s : State) : Option (List Byte) × State :=
  if (s.fdd[driveSlot d]).ghost then
    let r := ghostHas h n s
    if r.1 then ghostRead h n size r.2 else imgRead h n size r.2
  else imgRead h n size s

/-- The completion of a transfer of `size` bytes scheduled: `size * cpb` cycles from now (R273). -/
def scheduleTransfer (d : Fin 2) (size : Nat) (s : State) : State :=
  s.schedule (fddXferId d) (s.par.cycles (size * (s.fdd[driveSlot d]).cpb.toNat)) (BitVec.ofNat 32 d.val)

/-- The answer of an accepted transfer: the sector number and the completion time (R273). -/
def respondTransfer (d : Fin 2) (n : Sector) (size : Nat) (s : State) : Result :=
  respond (OK ||| VALID) 0 n (s.par.tadd s.now (s.par.cycles (size * (s.fdd[driveSlot d]).cpb.toNat)))
    (scheduleTransfer d size s)

/-- FDD_READ (R273): the bytes are fetched now and delivered at completion. -/
def execFddRead (drive : BitVec 8) (side : Bool) (now : Clock) (s : State) : Result :=
  select 2 drive s fun (d : Fin 2) =>
    timed now s fun s =>
      atSector d side s fun h n size s =>
        let r := fetchSector d h n size s
        match r.1 with
        | none => raise .io (dmaError (setCond d 3 r.2))
        | some data =>
          respondTransfer d n size (r.2.modFdd (driveSlot d) fun f =>
            { f with reading := true, cond := 0, xfSector := n, xfSize := size, xfBuf := data })

/-- FDD_WRITE (R274): the bytes are taken from the DMA at completion. -/
def execFddWrite (drive : BitVec 8) (side : Bool) (now : Clock) (s : State) : Result :=
  select 2 drive s fun (d : Fin 2) =>
    timed now s fun s =>
      atSector d side s fun _ n size s =>
        respondTransfer d n size (s.modFdd (driveSlot d) fun f =>
          { f with writing := true, cond := 0, xfSector := n, xfSize := size })

/-- The bytes of a finished write given to the overlay or the image (R275, R279). A drive with no disk, which no
reachable state has during a transfer (R263), fails without a call (log entry 18). -/
def storeSector (d : Fin 2) (bytes : List Byte) (s : State) : Bool × State :=
  let f := s.fdd[driveSlot d]
  match f.disk with
  | none => (false, s)
  | some h => if f.ghost then ghostWrite h f.xfSector bytes s else imgWrite h f.xfSector bytes s

/-- The read half of `FddXferDone(d)` (R275). -/
def finishRead (d : Fin 2) (s : State) : State :=
  (drqInAll (s.fdd[driveSlot d]).xfBuf s).modFdd (driveSlot d) fun f => { f with reading := false }

/-- The write half of `FddXferDone(d)` (R275): nothing is written unless the DMA gave every byte. -/
def finishWrite (d : Fin 2) (s : State) : State :=
  let r := drqOutBytes (s.fdd[driveSlot d]).xfSize s
  let s := match r.1 with
    | none => setCond d 3 r.2
    | some bytes =>
      let w := storeSector d bytes r.2
      if w.1 then w.2 else dmaError (setCond d 3 w.2)
  s.modFdd (driveSlot d) fun f => { f with writing := false }

/-- `FddXferDone(d)` (R275). -/
def fddXferDone (d : Fin 2) (s : State) : State :=
  (if (s.fdd[driveSlot d]).reading then finishRead d s else finishWrite d s).setPin .disk true

/-! ### Conversions (R278) -/

/-- `HPR`; with `FDD_RPM` 0 a free value (log entry 27). -/
def hblsPerRotation (p : Params) : Nat := quotient (p.hblPerSec * 60) p.fddRpm

/-- The value of a conversion function, before it is fitted to 32 bits; `none` for a function above 2 (R278). The argument
of function 0 is must-be-zero, which decoding checks. A quotient by `BPT` or `HPR` 0 is a free value (log entry 27). -/
def convert (p : Params) (fn : BitVec 16) (x : Nat) : Option Nat :=
  match fn.toNat with
  | 0 => some (hblsPerRotation p)
  | 1 => some (quotient (x * hblsPerRotation p) p.fddBytesPerTrack)
  | 2 => some (quotient (x * p.fddBytesPerTrack) (hblsPerRotation p))
  | _ => none

/-- FDD_CONV (R278). -/
def execFddConv (fn : BitVec 16) (arg : BitVec 32) (s : State) : Result :=
  match convert s.par fn arg.toNat with
  | none => raise .value s
  | some v => if v < 2 ^ 32 then respondData (BitVec.ofNat 32 v) s else raise .value s

/-! ### Register effects -/

/-- The write of `CPB` (R280). -/
def writeCpb (d : Fin 2) (v : BitVec 32) (s : State) : Result :=
  if v = 0 then raise .value s
  else if (s.fdd[driveSlot d]).motor then raise .busy s
  else respondOk (s.modFdd (driveSlot d) fun f => { f with cpb := v })

/-- The read of `BYTEPOS` (R276): not valid with the motor off. The register has 16 bits (30_encoding.md R114), which hold
every position of a legal track; with `BPT` above 65536, outside `Params.Ok`, a position is answered uncut in DATA: DESIGN
CHOICE (log entry 6). -/
def readBytepos (d : Fin 2) (s : State) : Result :=
  let f := s.fdd[driveSlot d]
  if f.motor then respondData (BitVec.ofNat 32 (f.bytePosition s.par s.now)) s else respondOk s

end Sys2Proof.Machine
end

