-- ==== Sys2Proof/Machine/Callbacks.lean ====
section
/-! DEFINITION. The callback identities (30_encoding.md R118): what the dispatcher does when it fires each one
(40_agenda.md R133, R146). -/

namespace Sys2Proof.Machine

/-- CB_ACIA0_TX (42_acia.md R206). -/
def execCbAcia0Tx (s : State) : Result := dispatchEntry (aciaTxId 0) (fun _ s => .next (aciaTxDone 0 s)) s

/-- CB_ACIA0_RX (42_acia.md R209). -/
def execCbAcia0Rx (s : State) : Result := dispatchEntry (aciaRxId 0) (fun _ s => .next (aciaRxDone 0 s)) s

/-- CB_ACIA1_TX (42_acia.md R206). -/
def execCbAcia1Tx (s : State) : Result := dispatchEntry (aciaTxId 1) (fun _ s => .next (aciaTxDone 1 s)) s

/-- CB_ACIA1_RX (42_acia.md R209). -/
def execCbAcia1Rx (s : State) : Result := dispatchEntry (aciaRxId 1) (fun _ s => .next (aciaRxDone 1 s)) s

/-- CB_FDD0_INDEX (44_floppy.md R268). -/
def execCbFdd0Index (s : State) : Result :=
  dispatchEntry (fddIndexId 0) (fun e s => .next (indexPulse 0 e.fireTime s)) s

/-- CB_FDD1_INDEX (44_floppy.md R268). -/
def execCbFdd1Index (s : State) : Result :=
  dispatchEntry (fddIndexId 1) (fun e s => .next (indexPulse 1 e.fireTime s)) s

/-- CB_FDD0_XFER (44_floppy.md R275). -/
def execCbFdd0Xfer (s : State) : Result := dispatchEntry (fddXferId 0) (fun _ s => .next (fddXferDone 0 s)) s

/-- CB_FDD1_XFER (44_floppy.md R275). -/
def execCbFdd1Xfer (s : State) : Result := dispatchEntry (fddXferId 1) (fun _ s => .next (fddXferDone 1 s)) s

/-- The device a block callback is for: its `param`, which is a device number (45_acsi.md R319; log entry 23). -/
def blockDevice (p : Param) : Dev := Fin.ofNat 8 p.toNat

/-- CB_ACSI_BLOCK (45_acsi.md R319). -/
def execCbAcsiBlock (s : State) : Result :=
  dispatchEntry acsiBlockId (fun e s => .next (acsiBlockDone (blockDevice e.param) e.fireTime s)) s

/-- CB_RESERVED_9 (30_encoding.md R118): the entry is removed and nothing else happens. -/
def execCbReserved9 (s : State) : Result := dispatchEntry 9 (fun _ s => .next s) s

/-- CB_RESERVED_10_11 (30_encoding.md R118). -/
def execCbReserved10 (n : Fin 2) (s : State) : Result :=
  dispatchEntry (Fin.ofNat 256 (10 + n.val)) (fun _ s => .next s) s

/-- CB_RESERVED_12_15 (30_encoding.md R118). -/
def execCbReserved12 (n : Fin 244) (s : State) : Result :=
  dispatchEntry (Fin.ofNat 256 (12 + n.val)) (fun _ s => .next s) s

/-- Handing an external callback to the host (40_agenda.md R133, 60_exceptions.md R359): what is saved, the new dispatcher
state, the FIRE event and the FIRE response. -/
def handToHost (c : CbId) (e : AgEntry) (s : State) : Result :=
  let id := BitVec.ofNat 8 c.val
  respond (OK ||| VALID ||| FIRE) id e.param e.fireTime
    (State.emit { s with fireCb := id, fireParam := e.param, fireTime := e.fireTime, disp := .waitAck }
      (.fire id e.param e.fireTime))

/-- CB_EXTn (40_agenda.md R133). -/
def execCbExt (n : CbId) (s : State) : Result := dispatchEntry (extId s.par n) (handToHost (extId s.par n)) s

end Sys2Proof.Machine
end

