-- ==== Sys2Proof/Machine/Engine.lean ====
section
/-! DEFINITION. The engine commands (40_agenda.md R133 to R142): NOP, RESET, ADVANCE, SCHEDULE, CANCEL, FIRE_ACK,
AG_QUERY. -/

namespace Sys2Proof.Machine

/-- NOP (R138). -/
def execNop (s : State) : Result := respondOk s

/-- Cold boot as RESET performs it (R139, 70_reset_and_hazards.md R390): every element of the PEE at its cold-boot value
under the parameters it has, the trace empty. What is not the PEE's (10_state.md R56) stays: the ports' traffic, memory,
the disks' data, where the free choices stand (log entry 11). -/
def coldBoot (s : State) : State :=
  { State.cold s.par with
    serving := s.serving
    portE := s.portE
    portX := s.portX
    picks := s.picks
    mem := s.mem
    disks := s.disks }

/-- RESET (R139). -/
def execReset (s : State) : Result := respondOk (coldBoot s)

/-- ADVANCE (R133): sets the target and starts the dispatch loop. The loop's turns are steps of their own, and the answer
comes from the turn that ends it or that hands out an external callback (log entry 1). -/
def execAdvance (now : Clock) (s : State) : Result :=
  if s.disp = .idle then timed now s fun s => .next { s with advTarget := s.now, disp := .scan }
  else raise .busy s

/-- The checks of a command on an external identity (R136, R140; 60_exceptions.md R352 steps 4 and 5). -/
def external (cb : BitVec 8) (s : State) (body : CbId → Result) : Result :=
  select s.par.ncb cb s fun (c : CbId) => if c.val < s.par.ncbInt then raise .priv s else body c

/-- SCHEDULE (R136). -/
def execSchedule (cb : BitVec 8) (param : Param) (delay : Clock) (s : State) : Result :=
  external cb s fun c => respondTime (s.par.tadd s.now delay) (s.schedule c delay param)

/-- CANCEL (R140). -/
def execCancel (cb : BitVec 8) (s : State) : Result :=
  external cb s fun c => respond (if (s.ag[c]).isSome then OK ||| VALID else OK) 0 0 0 (s.cancel c)

/-- FIRE_ACK (R141): the return from an external callback. The answer comes from the resumed loop. -/
def execFireAck (cb : BitVec 8) (s : State) : Result :=
  external cb s fun _ =>
    if s.disp ≠ .waitAck ∨ cb ≠ s.fireCb then raise .noFire s else resumeDispatch s

/-- AG_QUERY (R142). -/
def execAgQuery (cb : BitVec 8) (s : State) : Result :=
  select s.par.ncb cb s fun (c : CbId) =>
    match s.ag[c] with
    | some e => respond (OK ||| VALID) 0 e.param e.fireTime s
    | none => respondOk s

end Sys2Proof.Machine
end

