-- ==== Sys2Proof/Machine/RegMap.lean ====
section
/-! DEFINITION. The register map of 30_encoding.md R110 to R116: which register a (unit, index) pair names for a read
and for a write, its width, and its address. The decoder, the encoder and the general REG_RD and REG_WR share it. -/

namespace Sys2Proof

/-- ENGINE registers (R111), read. -/
def engineReadReg : Nat → Option ReadReg
  | 0 => some .engineCfg
  | 1 => some .engineStatus
  | 2 => some .engineNow
  | 3 => some .enginePending
  | _ => none

/-- ACIA registers (R112), read. -/
def aciaReadReg (i : Fin 2) : Nat → Option ReadReg
  | 0 => some (.aciaSr i)
  | 1 => some (.aciaRdr i)
  | 2 => some (.aciaCr i)
  | 3 => some (.aciaFlags i)
  | 4 => some (.aciaTdrs i)
  | 5 => some (.aciaRdrs i)
  | 6 => some (.aciaLastTxWrite i)
  | _ => none

/-- DMA registers (R113), read: 0 to 5 by name, 16 to 31 and 32 to 47 the FIFO bytes. -/
def dmaReadReg (idx : Nat) : Option ReadReg :=
  if h : 16 ≤ idx ∧ idx < 32 then some (.dmaFifo 0 ⟨idx - 16, by omega⟩)
  else if h : 32 ≤ idx ∧ idx < 48 then some (.dmaFifo 1 ⟨idx - 32, by omega⟩)
  else match idx with
    | 0 => some .dmaStatus
    | 1 => some .dmaSct
    | 2 => some .dmaAddr
    | 3 => some .dmaBct
    | 4 => some .dmaFifoctl
    | 5 => some .dmaMcr
    | _ => none

/-- Floppy registers of drives 0 and 1 (R114), read. -/
def fddReadReg (d : Fin 2) : Nat → Option ReadReg
  | 0 => some (.fddTrack d)
  | 1 => some (.fddFlags d.castSucc)
  | 2 => some (.fddBytepos d)
  | 3 => some (.fddCpb d)
  | 4 => some (.fddTlast d)
  | 5 => some (.fddTnext d)
  | 6 => some (.fddCond d)
  | _ => none

/-- The one register of the inspection slot (R114, 44_floppy.md R284). -/
def fdd2ReadReg : Nat → Option ReadReg
  | 1 => some (.fddFlags 2)
  | _ => none

/-- ACSIBUS registers (R115), read. -/
def acsibusReadReg : Nat → Option ReadReg
  | 0 => some .acsibusStatus
  | 1 => some .acsibusOwner
  | _ => none

/-- ACSIDEVk registers (R116), read. -/
def acsidevReadReg (k : Dev) : Nat → Option ReadReg
  | 0 => some (.acsidevPhase k)
  | 1 => some (.acsidevStatus k)
  | 2 => some (.acsidevError k)
  | 3 => some (.acsidevSectors k)
  | 4 => some (.acsidevFlags k)
  | 5 => some (.acsidevCurLba k)
  | 8 => some (.acsidevCmd k 0)
  | 9 => some (.acsidevCmd k 1)
  | 10 => some (.acsidevCmd k 2)
  | 11 => some (.acsidevCmd k 3)
  | 12 => some (.acsidevCmd k 4)
  | 13 => some (.acsidevCmd k 5)
  | _ => none

/-- Whether a number is an ACSI device's: below `ACSI_NDEV` (00_scope.md R8), and three bits wide (30_encoding.md R119). -/
def deviceExists (p : Params) (k : Nat) : Bool := k < p.acsiNdev && k < 8

/-- Whether a unit number has registers (R110): 0 to 7 do, and one for each device from 8 on (45_acsi.md R322). -/
def unitExists (p : Params) (unit : BitVec 8) : Bool := unit.toNat < 8 || deviceExists p (unit.toNat - 8)

/-- The readable register a (unit, index) pair names (R110 to R116). -/
def readRegAt (p : Params) (unit : BitVec 8) (idx : BitVec 16) : Option ReadReg :=
  match unit.toNat with
  | 0 => engineReadReg idx.toNat
  | 1 => aciaReadReg 0 idx.toNat
  | 2 => aciaReadReg 1 idx.toNat
  | 3 => dmaReadReg idx.toNat
  | 4 => fddReadReg 0 idx.toNat
  | 5 => fddReadReg 1 idx.toNat
  | 6 => fdd2ReadReg idx.toNat
  | 7 => acsibusReadReg idx.toNat
  | k + 8 => if deviceExists p k then acsidevReadReg (Fin.ofNat 8 k) idx.toNat else none

/-- The writable register a (unit, index) pair names (R111 to R115). -/
def writeRegAt (unit : BitVec 8) (idx : BitVec 16) : Option WriteReg :=
  match unit.toNat, idx.toNat with
  | 0, 0 => some .engineCfg
  | 1, 0 => some (.aciaCr 0)
  | 1, 1 => some (.aciaTdr 0)
  | 2, 0 => some (.aciaCr 1)
  | 2, 1 => some (.aciaTdr 1)
  | 3, 0 => some .dmaMcr
  | 3, 1 => some .dmaSct
  | 3, 2 => some .dmaAddr
  | 4, 3 => some (.fddCpb 0)
  | 5, 3 => some (.fddCpb 1)
  | 7, 0 => some .acsibusByte
  | _, _ => none

/-- The width of a writable register (R111 to R115). -/
def WriteReg.width (p : Params) : WriteReg → Nat
  | .engineCfg => 8
  | .aciaCr _ => 8
  | .aciaTdr _ => 8
  | .dmaMcr => 16
  | .dmaSct => p.dmaSctW
  | .dmaAddr => p.dmaAddrW
  | .fddCpb _ => 32
  | .acsibusByte => 8

/-- Whether a REG_WR value is one the register can take: no bit above its width (20_memory.md R71), and for `CFG`
only bit 0 (40_agenda.md R145). A value that fails is answered with ERR_RESERVED (60_exceptions.md R351). -/
def WriteReg.accepts (p : Params) (r : WriteReg) (value : BitVec 32) : Bool :=
  value.toNat < 2 ^ r.width p && (r != .engineCfg || value.toNat < 2)

end Sys2Proof
end

