-- ==== Sys2Proof/Machine/Registers.lean ====
section
/-! DEFINITION. Register access (40_agenda.md R143 to R145; 30_encoding.md R110 to R117): the read rule and the write rule
of every register, REG_RD and REG_WR as whole operations, and the instruction of each register. -/

namespace Sys2Proof.Machine

/-- The read rule of a register (R143), after `NOW` has been set: the value is zero-extended into DATA, or is TIME for a
ClockValue register (20_memory.md R71). Reads with an effect are those of 20_memory.md R82. -/
def readRule (r : ReadReg) (s : State) : Result :=
  match r with
  | .engineCfg => respondData (s.cfg.setWidth 32) s
  | .engineStatus => respondData (engineStatus s) s
  | .engineNow => respondTime s.now s
  | .enginePending => respondData (enginePending s) s
  | .aciaSr i => respondData ((s.acia[i]).sr.setWidth 32) s
  | .aciaRdr i => respondData ((s.acia[i]).rdr.setWidth 32) (readRdr i s)
  | .aciaCr i => respondData ((s.acia[i]).cr.setWidth 32) s
  | .aciaFlags i => respondData ((s.acia[i]).flags.setWidth 32) s
  | .aciaTdrs i => respondData ((s.acia[i]).tdrs.setWidth 32) s
  | .aciaRdrs i => respondData ((s.acia[i]).rdrs.setWidth 32) s
  | .aciaLastTxWrite i => respondTime (s.acia[i]).lastTxWrite s
  | .dmaStatus => respondData (s.dma.status.setWidth 32) s
  | .dmaSct => respondData s.dma.sct s
  | .dmaAddr => respondData s.dma.addr s
  | .dmaBct => respondData (s.dma.bct.setWidth 32) s
  | .dmaFifoctl => respondData (s.dma.fifoctl.setWidth 32) s
  | .dmaMcr => respondData (s.dma.mcr.setWidth 32) s
  | .dmaFifo h j => respondData (((s.dma.fifo[h])[j]).setWidth 32) s
  | .fddTrack d => respondData ((s.fdd[driveSlot d]).track.setWidth 32) s
  | .fddFlags slot => respondData ((s.fdd[slot]).flags.setWidth 32) s
  | .fddBytepos d => readBytepos d s
  | .fddCpb d => respondData (s.fdd[driveSlot d]).cpb s
  | .fddTlast d => respondTime (s.fdd[driveSlot d]).tLast s
  | .fddTnext d => respondTime (s.fdd[driveSlot d]).tNext s
  | .fddCond d => respondData ((s.fdd[driveSlot d]).cond.setWidth 32) (s.setPin .disk false)
  | .acsibusStatus => respondData ((s.acsi[s.acsiDev]).status.setWidth 32) (s.setPin .disk false)
  | .acsibusOwner => respondData (BitVec.ofNat 32 s.acsiDev.val) s
  | .acsidevPhase k => respondData (BitVec.ofNat 32 (s.acsi[k]).phase.val) s
  | .acsidevStatus k => respondData ((s.acsi[k]).status.setWidth 32) s
  | .acsidevError k => respondData ((s.acsi[k]).error.setWidth 32) s
  | .acsidevSectors k => respondData (s.acsi[k]).sectors s
  | .acsidevFlags k => respondData ((s.acsi[k]).flags.setWidth 32) s
  | .acsidevCurLba k => respondData ((s.acsi[k]).curLba.setWidth 32) s
  | .acsidevCmd k j => respondData (((s.acsi[k]).cmd[j]).setWidth 32) s

/-- The write rule of a register (R144), after `NOW` has been set. -/
def writeRule (r : WriteReg) (v : BitVec 32) (s : State) : Result :=
  match r with
  | .engineCfg => respondOk { s with cfg := v.setWidth 8 }
  | .aciaCr i => respondOk (setControl i (v.setWidth 8) s)
  | .aciaTdr i => respondOk (writeTdr i (v.setWidth 8) s)
  | .dmaMcr => respondOk (s.modDma (Dma.writeMcr (v.setWidth 16)))
  | .dmaSct => respondOk (s.modDma fun d => { d with sct := v })
  | .dmaAddr => respondOk (s.modDma fun d => { d with addr := v })
  | .fddCpb d => writeCpb d v s
  | .acsibusByte => acsiBusWrite (v.setWidth 8) s

/-- A read of an existing register: the time check, then the read rule. -/
def readRegister (r : ReadReg) (now : Clock) (s : State) : Result := timed now s (readRule r)

/-- A write of an existing register: the width check (60_exceptions.md R352, step 3), the time check, the write rule. -/
def writeRegister (r : WriteReg) (v : BitVec 32) (now : Clock) (s : State) : Result :=
  if r.accepts s.par v then timed now s (writeRule r v) else raise .reserved s

/-- The refusal of an access to no register: ERR_BAD_SEL for a unit with none, else ERR_BAD_IDX (R352, steps 4, 6). -/
def noRegister (unit : BitVec 8) (s : State) : Result :=
  if unitExists s.par unit then raise .badIdx s else raise .badSel s

/-- REG_RD as a whole operation (R143). -/
def execRegRd (unit : BitVec 8) (reg : BitVec 16) (now : Clock) (s : State) : Result :=
  match readRegAt s.par unit reg with
  | some r => readRegister r now s
  | none => noRegister unit s

/-- REG_WR as a whole operation (R144). -/
def execRegWr (unit : BitVec 8) (reg : BitVec 16) (value : BitVec 32) (now : Clock) (s : State) : Result :=
  match writeRegAt unit reg with
  | some r => writeRegister r value now s
  | none => noRegister unit s

/-! ### One instruction for each register -/

/-- REG_RD.ENGINE.CFG (R145). -/
def execRegRdEngineCfg (now : Clock) (s : State) : Result := readRegister .engineCfg now s

/-- REG_WR.ENGINE.CFG (R145). -/
def execRegWrEngineCfg (value : BitVec 8) (now : Clock) (s : State) : Result :=
  writeRegister .engineCfg (value.setWidth 32) now s

/-- REG_RD.ENGINE.STATUS (R145). -/
def execRegRdEngineStatus (now : Clock) (s : State) : Result := readRegister .engineStatus now s

/-- REG_RD.ENGINE.NOW (R145). -/
def execRegRdEngineNow (now : Clock) (s : State) : Result := readRegister .engineNow now s

/-- REG_RD.ENGINE.PENDING (R145). -/
def execRegRdEnginePending (now : Clock) (s : State) : Result := readRegister .enginePending now s

/-- REG_WR.ACIA0.CR (R197). -/
def execRegWrAcia0Cr (value : BitVec 8) (now : Clock) (s : State) : Result :=
  writeRegister (.aciaCr 0) (value.setWidth 32) now s

/-- REG_RD.ACIA0.SR (R202). -/
def execRegRdAcia0Sr (now : Clock) (s : State) : Result := readRegister (.aciaSr 0) now s

/-- REG_WR.ACIA0.TDR (R199). -/
def execRegWrAcia0Tdr (value : BitVec 8) (now : Clock) (s : State) : Result :=
  writeRegister (.aciaTdr 0) (value.setWidth 32) now s

/-- REG_RD.ACIA0.RDR (R203). -/
def execRegRdAcia0Rdr (now : Clock) (s : State) : Result := readRegister (.aciaRdr 0) now s

/-- REG_RD.ACIA0.CR (R201). -/
def execRegRdAcia0Cr (now : Clock) (s : State) : Result := readRegister (.aciaCr 0) now s

/-- REG_RD.ACIA0.FLAGS (R201). -/
def execRegRdAcia0Flags (now : Clock) (s : State) : Result := readRegister (.aciaFlags 0) now s

/-- REG_RD.ACIA0.TDRS (R201). -/
def execRegRdAcia0Tdrs (now : Clock) (s : State) : Result := readRegister (.aciaTdrs 0) now s

/-- REG_RD.ACIA0.RDRS (R201). -/
def execRegRdAcia0Rdrs (now : Clock) (s : State) : Result := readRegister (.aciaRdrs 0) now s

/-- REG_RD.ACIA0.LAST_TX_WRITE (R201). -/
def execRegRdAcia0LastTxWrite (now : Clock) (s : State) : Result := readRegister (.aciaLastTxWrite 0) now s

/-- REG_WR.ACIA1.CR (R197). -/
def execRegWrAcia1Cr (value : BitVec 8) (now : Clock) (s : State) : Result :=
  writeRegister (.aciaCr 1) (value.setWidth 32) now s

/-- REG_RD.ACIA1.SR (R202). -/
def execRegRdAcia1Sr (now : Clock) (s : State) : Result := readRegister (.aciaSr 1) now s

/-- REG_WR.ACIA1.TDR (R199). -/
def execRegWrAcia1Tdr (value : BitVec 8) (now : Clock) (s : State) : Result :=
  writeRegister (.aciaTdr 1) (value.setWidth 32) now s

/-- REG_RD.ACIA1.RDR (R203). -/
def execRegRdAcia1Rdr (now : Clock) (s : State) : Result := readRegister (.aciaRdr 1) now s

/-- REG_RD.ACIA1.CR (R201). -/
def execRegRdAcia1Cr (now : Clock) (s : State) : Result := readRegister (.aciaCr 1) now s

/-- REG_RD.ACIA1.FLAGS (R201). -/
def execRegRdAcia1Flags (now : Clock) (s : State) : Result := readRegister (.aciaFlags 1) now s

/-- REG_RD.ACIA1.TDRS (R201). -/
def execRegRdAcia1Tdrs (now : Clock) (s : State) : Result := readRegister (.aciaTdrs 1) now s

/-- REG_RD.ACIA1.RDRS (R201). -/
def execRegRdAcia1Rdrs (now : Clock) (s : State) : Result := readRegister (.aciaRdrs 1) now s

/-- REG_RD.ACIA1.LAST_TX_WRITE (R201). -/
def execRegRdAcia1LastTxWrite (now : Clock) (s : State) : Result := readRegister (.aciaLastTxWrite 1) now s

/-- REG_WR.DMA.MCR (R233). -/
def execRegWrDmaMcr (value : BitVec 16) (now : Clock) (s : State) : Result :=
  writeRegister .dmaMcr (value.setWidth 32) now s

/-- REG_RD.DMA.STATUS (R244). -/
def execRegRdDmaStatus (now : Clock) (s : State) : Result := readRegister .dmaStatus now s

/-- REG_WR.DMA.SCT (R234). -/
def execRegWrDmaSct (value : BitVec 32) (now : Clock) (s : State) : Result :=
  writeRegister .dmaSct value now s

/-- REG_RD.DMA.SCT (R244). -/
def execRegRdDmaSct (now : Clock) (s : State) : Result := readRegister .dmaSct now s

/-- REG_WR.DMA.ADDR (R235). -/
def execRegWrDmaAddr (value : Addr) (now : Clock) (s : State) : Result :=
  writeRegister .dmaAddr value now s

/-- REG_RD.DMA.ADDR (R244). -/
def execRegRdDmaAddr (now : Clock) (s : State) : Result := readRegister .dmaAddr now s

/-- REG_RD.DMA.BCT (R244). -/
def execRegRdDmaBct (now : Clock) (s : State) : Result := readRegister .dmaBct now s

/-- REG_RD.DMA.FIFOCTL (R244). -/
def execRegRdDmaFifoctl (now : Clock) (s : State) : Result := readRegister .dmaFifoctl now s

/-- REG_RD.DMA.MCR (R244). -/
def execRegRdDmaMcr (now : Clock) (s : State) : Result := readRegister .dmaMcr now s

/-- REG_RD.DMA.FIFO0_j (R244). -/
def execRegRdDmaFifo0 (j : Fin 16) (now : Clock) (s : State) : Result := readRegister (.dmaFifo 0 j) now s

/-- REG_RD.DMA.FIFO1_j (R244). -/
def execRegRdDmaFifo1 (j : Fin 16) (now : Clock) (s : State) : Result := readRegister (.dmaFifo 1 j) now s

/-- REG_RD.FDDd.TRACK (R282). -/
def execRegRdFddTrack (drive : Fin 2) (now : Clock) (s : State) : Result := readRegister (.fddTrack drive) now s

/-- REG_RD.FDDd.FLAGS (R282). -/
def execRegRdFddFlags (drive : Fin 2) (now : Clock) (s : State) : Result :=
  readRegister (.fddFlags (driveSlot drive)) now s

/-- REG_RD.FDDd.BYTEPOS (R276). -/
def execRegRdFddBytepos (drive : Fin 2) (now : Clock) (s : State) : Result := readRegister (.fddBytepos drive) now s

/-- REG_RD.FDDd.CPB (R282). -/
def execRegRdFddCpb (drive : Fin 2) (now : Clock) (s : State) : Result := readRegister (.fddCpb drive) now s

/-- REG_WR.FDDd.CPB (R280). -/
def execRegWrFddCpb (drive : Fin 2) (value : BitVec 32) (now : Clock) (s : State) : Result :=
  writeRegister (.fddCpb drive) value now s

/-- REG_RD.FDDd.TLAST (R282). -/
def execRegRdFddTlast (drive : Fin 2) (now : Clock) (s : State) : Result := readRegister (.fddTlast drive) now s

/-- REG_RD.FDDd.TNEXT (R282). -/
def execRegRdFddTnext (drive : Fin 2) (now : Clock) (s : State) : Result := readRegister (.fddTnext drive) now s

/-- REG_RD.FDDd.COND (R281). -/
def execRegRdFddCond (drive : Fin 2) (now : Clock) (s : State) : Result := readRegister (.fddCond drive) now s

/-- REG_RD.FDD2.FLAGS (R284). -/
def execRegRdFdd2Flags (now : Clock) (s : State) : Result := readRegister (.fddFlags 2) now s

/-- REG_WR.ACSIBUS.BYTE (R303). -/
def execRegWrAcsibusByte (value : BitVec 8) (now : Clock) (s : State) : Result :=
  writeRegister .acsibusByte (value.setWidth 32) now s

/-- REG_RD.ACSIBUS.STATUS (R321). -/
def execRegRdAcsibusStatus (now : Clock) (s : State) : Result := readRegister .acsibusStatus now s

/-- REG_RD.ACSIBUS.OWNER (R321). -/
def execRegRdAcsibusOwner (now : Clock) (s : State) : Result := readRegister .acsibusOwner now s

/-- REG_RD.ACSIDEVk.PHASE (R322). -/
def execRegRdAcsidevPhase (dev : Dev) (now : Clock) (s : State) : Result := readRegister (.acsidevPhase dev) now s

/-- REG_RD.ACSIDEVk.STATUS (R322). -/
def execRegRdAcsidevStatus (dev : Dev) (now : Clock) (s : State) : Result := readRegister (.acsidevStatus dev) now s

/-- REG_RD.ACSIDEVk.ERROR (R322). -/
def execRegRdAcsidevError (dev : Dev) (now : Clock) (s : State) : Result := readRegister (.acsidevError dev) now s

/-- REG_RD.ACSIDEVk.SECTORS (R322). -/
def execRegRdAcsidevSectors (dev : Dev) (now : Clock) (s : State) : Result := readRegister (.acsidevSectors dev) now s

/-- REG_RD.ACSIDEVk.FLAGS (R322). -/
def execRegRdAcsidevFlags (dev : Dev) (now : Clock) (s : State) : Result := readRegister (.acsidevFlags dev) now s

/-- REG_RD.ACSIDEVk.CUR_LBA (R322). -/
def execRegRdAcsidevCurLba (dev : Dev) (now : Clock) (s : State) : Result := readRegister (.acsidevCurLba dev) now s

/-- REG_RD.ACSIDEVk.CMD0 (R322). -/
def execRegRdAcsidevCmd0 (dev : Dev) (now : Clock) (s : State) : Result := readRegister (.acsidevCmd dev 0) now s

/-- REG_RD.ACSIDEVk.CMD1 (R322). -/
def execRegRdAcsidevCmd1 (dev : Dev) (now : Clock) (s : State) : Result := readRegister (.acsidevCmd dev 1) now s

/-- REG_RD.ACSIDEVk.CMD2 (R322). -/
def execRegRdAcsidevCmd2 (dev : Dev) (now : Clock) (s : State) : Result := readRegister (.acsidevCmd dev 2) now s

/-- REG_RD.ACSIDEVk.CMD3 (R322). -/
def execRegRdAcsidevCmd3 (dev : Dev) (now : Clock) (s : State) : Result := readRegister (.acsidevCmd dev 3) now s

/-- REG_RD.ACSIDEVk.CMD4 (R322). -/
def execRegRdAcsidevCmd4 (dev : Dev) (now : Clock) (s : State) : Result := readRegister (.acsidevCmd dev 4) now s

/-- REG_RD.ACSIDEVk.CMD5 (R322). -/
def execRegRdAcsidevCmd5 (dev : Dev) (now : Clock) (s : State) : Result := readRegister (.acsidevCmd dev 5) now s

end Sys2Proof.Machine
end

