-- ==== Sys2Proof/Machine/Dispatch.lean ====
section
/-! DEFINITION. The meaning of every instruction: one arm per constructor of `Instr`. -/

namespace Sys2Proof.Machine

def exec (i : Instr) (s : State) : Host.Outcome State Fault Refusal :=
  match i with
  | .nop => Sys2Proof.Machine.execNop s
  | .reset => Sys2Proof.Machine.execReset s
  | .advance now => Sys2Proof.Machine.execAdvance now s
  | .schedule cb param delay => Sys2Proof.Machine.execSchedule cb param delay s
  | .cancel cb => Sys2Proof.Machine.execCancel cb s
  | .fireAck cb => Sys2Proof.Machine.execFireAck cb s
  | .agQuery cb => Sys2Proof.Machine.execAgQuery cb s
  | .cbCreate buf size => Sys2Proof.Machine.execCbCreate buf size s
  | .cbDestroy buf => Sys2Proof.Machine.execCbDestroy buf s
  | .cbReset buf => Sys2Proof.Machine.execCbReset buf s
  | .cbAddbyte buf byte => Sys2Proof.Machine.execCbAddbyte buf byte s
  | .cbAddbytes buf len burst => Sys2Proof.Machine.execCbAddbytes buf len burst s
  | .cbReadbyte buf => Sys2Proof.Machine.execCbReadbyte buf s
  | .cbNextbyte buf => Sys2Proof.Machine.execCbNextbyte buf s
  | .cbArebytes buf => Sys2Proof.Machine.execCbArebytes buf s
  | .cbCount buf => Sys2Proof.Machine.execCbCount buf s
  | .regRd unit reg now => Sys2Proof.Machine.execRegRd unit reg now s
  | .regWr unit reg value now => Sys2Proof.Machine.execRegWr unit reg value now s
  | .aciaRxbyte inst byte now => Sys2Proof.Machine.execAciaRxbyte inst byte now s
  | .fddMount slot handle singleSided ghost => Sys2Proof.Machine.execFddMount slot handle singleSided ghost s
  | .fddUnmount slot => Sys2Proof.Machine.execFddUnmount slot s
  | .fddMotor drive on now => Sys2Proof.Machine.execFddMotor drive on now s
  | .fddStep drive dir now => Sys2Proof.Machine.execFddStep drive dir now s
  | .fddRead drive side now => Sys2Proof.Machine.execFddRead drive side now s
  | .fddWrite drive side now => Sys2Proof.Machine.execFddWrite drive side now s
  | .fddConv fn arg => Sys2Proof.Machine.execFddConv fn arg s
  | .acsiAttach dev handle sectors => Sys2Proof.Machine.execAcsiAttach dev handle sectors s
  | .acsiDetach dev => Sys2Proof.Machine.execAcsiDetach dev s
  | .regRdEngineCfg now => Sys2Proof.Machine.execRegRdEngineCfg now s
  | .regWrEngineCfg value now => Sys2Proof.Machine.execRegWrEngineCfg value now s
  | .regRdEngineStatus now => Sys2Proof.Machine.execRegRdEngineStatus now s
  | .regRdEngineNow now => Sys2Proof.Machine.execRegRdEngineNow now s
  | .regRdEnginePending now => Sys2Proof.Machine.execRegRdEnginePending now s
  | .regWrAcia0Cr value now => Sys2Proof.Machine.execRegWrAcia0Cr value now s
  | .regRdAcia0Sr now => Sys2Proof.Machine.execRegRdAcia0Sr now s
  | .regWrAcia0Tdr value now => Sys2Proof.Machine.execRegWrAcia0Tdr value now s
  | .regRdAcia0Rdr now => Sys2Proof.Machine.execRegRdAcia0Rdr now s
  | .regRdAcia0Cr now => Sys2Proof.Machine.execRegRdAcia0Cr now s
  | .regRdAcia0Flags now => Sys2Proof.Machine.execRegRdAcia0Flags now s
  | .regRdAcia0Tdrs now => Sys2Proof.Machine.execRegRdAcia0Tdrs now s
  | .regRdAcia0Rdrs now => Sys2Proof.Machine.execRegRdAcia0Rdrs now s
  | .regRdAcia0LastTxWrite now => Sys2Proof.Machine.execRegRdAcia0LastTxWrite now s
  | .regWrAcia1Cr value now => Sys2Proof.Machine.execRegWrAcia1Cr value now s
  | .regRdAcia1Sr now => Sys2Proof.Machine.execRegRdAcia1Sr now s
  | .regWrAcia1Tdr value now => Sys2Proof.Machine.execRegWrAcia1Tdr value now s
  | .regRdAcia1Rdr now => Sys2Proof.Machine.execRegRdAcia1Rdr now s
  | .regRdAcia1Cr now => Sys2Proof.Machine.execRegRdAcia1Cr now s
  | .regRdAcia1Flags now => Sys2Proof.Machine.execRegRdAcia1Flags now s
  | .regRdAcia1Tdrs now => Sys2Proof.Machine.execRegRdAcia1Tdrs now s
  | .regRdAcia1Rdrs now => Sys2Proof.Machine.execRegRdAcia1Rdrs now s
  | .regRdAcia1LastTxWrite now => Sys2Proof.Machine.execRegRdAcia1LastTxWrite now s
  | .regWrDmaMcr value now => Sys2Proof.Machine.execRegWrDmaMcr value now s
  | .regRdDmaStatus now => Sys2Proof.Machine.execRegRdDmaStatus now s
  | .regWrDmaSct value now => Sys2Proof.Machine.execRegWrDmaSct value now s
  | .regRdDmaSct now => Sys2Proof.Machine.execRegRdDmaSct now s
  | .regWrDmaAddr value now => Sys2Proof.Machine.execRegWrDmaAddr value now s
  | .regRdDmaAddr now => Sys2Proof.Machine.execRegRdDmaAddr now s
  | .regRdDmaBct now => Sys2Proof.Machine.execRegRdDmaBct now s
  | .regRdDmaFifoctl now => Sys2Proof.Machine.execRegRdDmaFifoctl now s
  | .regRdDmaMcr now => Sys2Proof.Machine.execRegRdDmaMcr now s
  | .regRdDmaFifo0 j now => Sys2Proof.Machine.execRegRdDmaFifo0 j now s
  | .regRdDmaFifo1 j now => Sys2Proof.Machine.execRegRdDmaFifo1 j now s
  | .regRdFddTrack drive now => Sys2Proof.Machine.execRegRdFddTrack drive now s
  | .regRdFddFlags drive now => Sys2Proof.Machine.execRegRdFddFlags drive now s
  | .regRdFddBytepos drive now => Sys2Proof.Machine.execRegRdFddBytepos drive now s
  | .regRdFddCpb drive now => Sys2Proof.Machine.execRegRdFddCpb drive now s
  | .regWrFddCpb drive value now => Sys2Proof.Machine.execRegWrFddCpb drive value now s
  | .regRdFddTlast drive now => Sys2Proof.Machine.execRegRdFddTlast drive now s
  | .regRdFddTnext drive now => Sys2Proof.Machine.execRegRdFddTnext drive now s
  | .regRdFddCond drive now => Sys2Proof.Machine.execRegRdFddCond drive now s
  | .regRdFdd2Flags now => Sys2Proof.Machine.execRegRdFdd2Flags now s
  | .regWrAcsibusByte value now => Sys2Proof.Machine.execRegWrAcsibusByte value now s
  | .regRdAcsibusStatus now => Sys2Proof.Machine.execRegRdAcsibusStatus now s
  | .regRdAcsibusOwner now => Sys2Proof.Machine.execRegRdAcsibusOwner now s
  | .regRdAcsidevPhase dev now => Sys2Proof.Machine.execRegRdAcsidevPhase dev now s
  | .regRdAcsidevStatus dev now => Sys2Proof.Machine.execRegRdAcsidevStatus dev now s
  | .regRdAcsidevError dev now => Sys2Proof.Machine.execRegRdAcsidevError dev now s
  | .regRdAcsidevSectors dev now => Sys2Proof.Machine.execRegRdAcsidevSectors dev now s
  | .regRdAcsidevFlags dev now => Sys2Proof.Machine.execRegRdAcsidevFlags dev now s
  | .regRdAcsidevCurLba dev now => Sys2Proof.Machine.execRegRdAcsidevCurLba dev now s
  | .regRdAcsidevCmd0 dev now => Sys2Proof.Machine.execRegRdAcsidevCmd0 dev now s
  | .regRdAcsidevCmd1 dev now => Sys2Proof.Machine.execRegRdAcsidevCmd1 dev now s
  | .regRdAcsidevCmd2 dev now => Sys2Proof.Machine.execRegRdAcsidevCmd2 dev now s
  | .regRdAcsidevCmd3 dev now => Sys2Proof.Machine.execRegRdAcsidevCmd3 dev now s
  | .regRdAcsidevCmd4 dev now => Sys2Proof.Machine.execRegRdAcsidevCmd4 dev now s
  | .regRdAcsidevCmd5 dev now => Sys2Proof.Machine.execRegRdAcsidevCmd5 dev now s
  | .cbAcia0Tx => Sys2Proof.Machine.execCbAcia0Tx s
  | .cbAcia0Rx => Sys2Proof.Machine.execCbAcia0Rx s
  | .cbAcia1Tx => Sys2Proof.Machine.execCbAcia1Tx s
  | .cbAcia1Rx => Sys2Proof.Machine.execCbAcia1Rx s
  | .cbFdd0Index => Sys2Proof.Machine.execCbFdd0Index s
  | .cbFdd1Index => Sys2Proof.Machine.execCbFdd1Index s
  | .cbFdd0Xfer => Sys2Proof.Machine.execCbFdd0Xfer s
  | .cbFdd1Xfer => Sys2Proof.Machine.execCbFdd1Xfer s
  | .cbAcsiBlock => Sys2Proof.Machine.execCbAcsiBlock s
  | .cbReserved9 => Sys2Proof.Machine.execCbReserved9 s
  | .cbReserved10 n => Sys2Proof.Machine.execCbReserved10 n s
  | .cbReserved12 n => Sys2Proof.Machine.execCbReserved12 n s
  | .cbExt n => Sys2Proof.Machine.execCbExt n s
  | .acsiReady dev lba count ctrl => Sys2Proof.Machine.execAcsiReady dev lba count ctrl s
  | .acsiRequestSense dev lba count ctrl => Sys2Proof.Machine.execAcsiRequestSense dev lba count ctrl s
  | .acsiFormat dev lba count ctrl => Sys2Proof.Machine.execAcsiFormat dev lba count ctrl s
  | .acsiRead dev lba count ctrl => Sys2Proof.Machine.execAcsiRead dev lba count ctrl s
  | .acsiWrite dev lba count ctrl => Sys2Proof.Machine.execAcsiWrite dev lba count ctrl s
  | .acsiSeek dev lba count ctrl => Sys2Proof.Machine.execAcsiSeek dev lba count ctrl s
  | .acsiInquiry dev lba count ctrl => Sys2Proof.Machine.execAcsiInquiry dev lba count ctrl s
  | .acsiModeSelect dev lba count ctrl => Sys2Proof.Machine.execAcsiModeSelect dev lba count ctrl s
  | .acsiInvalid dev op lba count ctrl => Sys2Proof.Machine.execAcsiInvalid dev op lba count ctrl s

end Sys2Proof.Machine
end

