-- ==== Sys2Proof/WellFormed.lean ====
section
/-! DEFINITION. Which terms of `Instr` stand for an encoding: the checks that the operand types leave open. A term
that fails has no word of its own: its fields would set a must-be-zero bit (30_encoding.md R102), or it spells a row
that another constructor is for, or that the parameters (00_scope.md R8) leave no room for. -/

namespace Sys2Proof

/-- The burst lanes at and above `len` are zero (30_encoding.md R106). -/
def burstLanesClear (len : BitVec 16) (burst : BitVec 96) : Bool :=
  burst.toNat >>> (8 * len.toNat) == 0

/-- The ACSI opcodes that have a rule of their own (30_encoding.md R120). -/
def acsiOpcodeKnown (op : BitVec 5) : Bool :=
  op == 0x00 || op == 0x03 || op == 0x04 || op == 0x08 || op == 0x0a || op == 0x0b || op == 0x12 || op == 0x15

/-- The `now` of a time-carrying command (40_agenda.md R131). -/
def instrTime : Instr → Option Clock
  | .advance now => some now
  | .regRd _ _ now => some now
  | .regWr _ _ _ now => some now
  | .aciaRxbyte _ _ now => some now
  | .fddMotor _ _ now => some now
  | .fddStep _ _ now => some now
  | .fddRead _ _ now => some now
  | .fddWrite _ _ now => some now
  | .regRdEngineCfg now => some now
  | .regWrEngineCfg _ now => some now
  | .regRdEngineStatus now => some now
  | .regRdEngineNow now => some now
  | .regRdEnginePending now => some now
  | .regWrAcia0Cr _ now => some now
  | .regRdAcia0Sr now => some now
  | .regWrAcia0Tdr _ now => some now
  | .regRdAcia0Rdr now => some now
  | .regRdAcia0Cr now => some now
  | .regRdAcia0Flags now => some now
  | .regRdAcia0Tdrs now => some now
  | .regRdAcia0Rdrs now => some now
  | .regRdAcia0LastTxWrite now => some now
  | .regWrAcia1Cr _ now => some now
  | .regRdAcia1Sr now => some now
  | .regWrAcia1Tdr _ now => some now
  | .regRdAcia1Rdr now => some now
  | .regRdAcia1Cr now => some now
  | .regRdAcia1Flags now => some now
  | .regRdAcia1Tdrs now => some now
  | .regRdAcia1Rdrs now => some now
  | .regRdAcia1LastTxWrite now => some now
  | .regWrDmaMcr _ now => some now
  | .regRdDmaStatus now => some now
  | .regWrDmaSct _ now => some now
  | .regRdDmaSct now => some now
  | .regWrDmaAddr _ now => some now
  | .regRdDmaAddr now => some now
  | .regRdDmaBct now => some now
  | .regRdDmaFifoctl now => some now
  | .regRdDmaMcr now => some now
  | .regRdDmaFifo0 _ now => some now
  | .regRdDmaFifo1 _ now => some now
  | .regRdFddTrack _ now => some now
  | .regRdFddFlags _ now => some now
  | .regRdFddBytepos _ now => some now
  | .regRdFddCpb _ now => some now
  | .regWrFddCpb _ _ now => some now
  | .regRdFddTlast _ now => some now
  | .regRdFddTnext _ now => some now
  | .regRdFddCond _ now => some now
  | .regRdFdd2Flags now => some now
  | .regWrAcsibusByte _ now => some now
  | .regRdAcsibusStatus now => some now
  | .regRdAcsibusOwner now => some now
  | .regRdAcsidevPhase _ now => some now
  | .regRdAcsidevStatus _ now => some now
  | .regRdAcsidevError _ now => some now
  | .regRdAcsidevSectors _ now => some now
  | .regRdAcsidevFlags _ now => some now
  | .regRdAcsidevCurLba _ now => some now
  | .regRdAcsidevCmd0 _ now => some now
  | .regRdAcsidevCmd1 _ now => some now
  | .regRdAcsidevCmd2 _ now => some now
  | .regRdAcsidevCmd3 _ now => some now
  | .regRdAcsidevCmd4 _ now => some now
  | .regRdAcsidevCmd5 _ now => some now
  | _ => none

/-- The fields of an instruction but for its time, at the widths and counts the parameters give (00_scope.md R8). -/
def Instr.fieldsFit (p : Params) : Instr → Bool
  | .schedule _ param delay => param.toNat < 2 ^ p.pw && delay.toNat < 2 ^ p.cw
  | .cbAddbytes _ len burst => burstLanesClear len burst
  | .fddConv fn arg => fn != 0 || arg == 0
  | .regRd unit reg _ => (readRegAt p unit reg).isNone
  | .regWr unit reg _ _ => (writeRegAt unit reg).isNone
  | .regWrEngineCfg value _ => value.toNat < 2
  | .regWrDmaSct value _ => value.toNat < 2 ^ p.dmaSctW
  | .regWrDmaAddr value _ => value.toNat < 2 ^ p.dmaAddrW
  | .regRdAcsidevPhase dev _ => dev.val < p.acsiNdev
  | .regRdAcsidevStatus dev _ => dev.val < p.acsiNdev
  | .regRdAcsidevError dev _ => dev.val < p.acsiNdev
  | .regRdAcsidevSectors dev _ => dev.val < p.acsiNdev
  | .regRdAcsidevFlags dev _ => dev.val < p.acsiNdev
  | .regRdAcsidevCurLba dev _ => dev.val < p.acsiNdev
  | .regRdAcsidevCmd0 dev _ => dev.val < p.acsiNdev
  | .regRdAcsidevCmd1 dev _ => dev.val < p.acsiNdev
  | .regRdAcsidevCmd2 dev _ => dev.val < p.acsiNdev
  | .regRdAcsidevCmd3 dev _ => dev.val < p.acsiNdev
  | .regRdAcsidevCmd4 dev _ => dev.val < p.acsiNdev
  | .regRdAcsidevCmd5 dev _ => dev.val < p.acsiNdev
  | .cbReserved9 => 9 < p.ncbInt
  | .cbReserved10 n => 10 + n.val < p.ncbInt
  | .cbReserved12 n => 12 + n.val < p.ncbInt
  | .cbExt n => p.ncbInt + n.val < p.ncb
  | .acsiInvalid _ op _ _ _ => !acsiOpcodeKnown op
  | _ => true

/-- `i` is what some encoding decodes to under the parameters `p`. -/
def Instr.wf (p : Params) (i : Instr) : Bool :=
  i.fieldsFit p && (instrTime i).all fun now => now.toNat < 2 ^ p.cw

end Sys2Proof
end

