-- ==== Sys2Proof/Decode.lean ====
section
/-! DEFINITION. Decoding and encoding. A command word (30_encoding.md R101) is split into its five fields; the
operation, the port's right and the must-be-zero bits are checked in the order of 60_exceptions.md R352 (steps 1 to 3)
and the operation's instruction is built. Callback identities (R118) and ACSI command blocks (R119, R120) have decoders
of their own. The encoder follows, written from the same tables. -/

namespace Sys2Proof

/-- The five fields of a command word (30_encoding.md R101). -/
structure Cmd where
  op : BitVec 8
  sel : BitVec 8
  idx : BitVec 16
  param : BitVec 32
  time : BitVec 64
deriving DecidableEq, Repr

/-- The fields of a word: OP 127:120, SEL 119:112, IDX 111:96, PARAM 95:64, TIME 63:0 (R101). -/
def Cmd.ofWord (w : Word128) : Cmd where
  op := w.extractLsb' 120 8
  sel := w.extractLsb' 112 8
  idx := w.extractLsb' 96 16
  param := w.extractLsb' 64 32
  time := w.extractLsb' 0 64

/-- The word with these fields (R101). -/
def Cmd.toWord (c : Cmd) : Word128 :=
  (c.op ++ c.sel ++ c.idx ++ c.param ++ c.time).cast rfl

/-- The operations of 30_encoding.md R105. -/
inductive Op where
  | nop | reset | advance | schedule | cancel | fireAck | agQuery
  | cbCreate | cbDestroy | cbReset | cbAddbyte | cbAddbytes | cbReadbyte | cbNextbyte | cbArebytes | cbCount
  | regRd | regWr | aciaRxbyte | fddMount | fddUnmount | fddMotor | fddStep | fddRead | fddWrite | fddConv
  | acsiAttach | acsiDetach
deriving DecidableEq, Repr

/-- The opcode map (R105). Every other value is illegal (R108(a)). -/
def opOf (op : BitVec 8) : Option Op :=
  match op.toNat with
  | 0x00 => some .nop
  | 0x01 => some .reset
  | 0x10 => some .advance
  | 0x11 => some .schedule
  | 0x12 => some .cancel
  | 0x13 => some .fireAck
  | 0x14 => some .agQuery
  | 0x20 => some .cbCreate
  | 0x21 => some .cbDestroy
  | 0x22 => some .cbReset
  | 0x23 => some .cbAddbyte
  | 0x24 => some .cbAddbytes
  | 0x25 => some .cbReadbyte
  | 0x26 => some .cbNextbyte
  | 0x27 => some .cbArebytes
  | 0x28 => some .cbCount
  | 0x30 => some .regRd
  | 0x31 => some .regWr
  | 0x40 => some .aciaRxbyte
  | 0x41 => some .fddMount
  | 0x42 => some .fddUnmount
  | 0x43 => some .fddMotor
  | 0x44 => some .fddStep
  | 0x45 => some .fddRead
  | 0x46 => some .fddWrite
  | 0x47 => some .fddConv
  | 0x48 => some .acsiAttach
  | 0x49 => some .acsiDetach
  | _ => none

/-- Whether port X may issue the operation: NOP and the CB operations (60_exceptions.md R362). Port E may issue all. -/
def Op.onPortX : Op → Bool
  | .nop | .cbCreate | .cbDestroy | .cbReset | .cbAddbyte | .cbAddbytes | .cbReadbyte | .cbNextbyte | .cbArebytes
  | .cbCount => true
  | _ => false

/-- The instruction, if the bits that must be zero are (30_encoding.md R102); else ERR_RESERVED. -/
def ifClear (clear : Bool) (i : Instr) : Except ErrCode Instr :=
  if clear then .ok i else .error .reserved

/-- The instruction of a register read. -/
def readInstr (r : ReadReg) (now : Clock) : Instr :=
  match r with
  | .engineCfg => .regRdEngineCfg now
  | .engineStatus => .regRdEngineStatus now
  | .engineNow => .regRdEngineNow now
  | .enginePending => .regRdEnginePending now
  | .aciaSr i => if i = 0 then .regRdAcia0Sr now else .regRdAcia1Sr now
  | .aciaRdr i => if i = 0 then .regRdAcia0Rdr now else .regRdAcia1Rdr now
  | .aciaCr i => if i = 0 then .regRdAcia0Cr now else .regRdAcia1Cr now
  | .aciaFlags i => if i = 0 then .regRdAcia0Flags now else .regRdAcia1Flags now
  | .aciaTdrs i => if i = 0 then .regRdAcia0Tdrs now else .regRdAcia1Tdrs now
  | .aciaRdrs i => if i = 0 then .regRdAcia0Rdrs now else .regRdAcia1Rdrs now
  | .aciaLastTxWrite i => if i = 0 then .regRdAcia0LastTxWrite now else .regRdAcia1LastTxWrite now
  | .dmaStatus => .regRdDmaStatus now
  | .dmaSct => .regRdDmaSct now
  | .dmaAddr => .regRdDmaAddr now
  | .dmaBct => .regRdDmaBct now
  | .dmaFifoctl => .regRdDmaFifoctl now
  | .dmaMcr => .regRdDmaMcr now
  | .dmaFifo h j => if h = 0 then .regRdDmaFifo0 j now else .regRdDmaFifo1 j now
  | .fddTrack d => .regRdFddTrack d now
  | .fddFlags s => if s = 0 then .regRdFddFlags 0 now else if s = 1 then .regRdFddFlags 1 now else .regRdFdd2Flags now
  | .fddBytepos d => .regRdFddBytepos d now
  | .fddCpb d => .regRdFddCpb d now
  | .fddTlast d => .regRdFddTlast d now
  | .fddTnext d => .regRdFddTnext d now
  | .fddCond d => .regRdFddCond d now
  | .acsibusStatus => .regRdAcsibusStatus now
  | .acsibusOwner => .regRdAcsibusOwner now
  | .acsidevPhase k => .regRdAcsidevPhase k now
  | .acsidevStatus k => .regRdAcsidevStatus k now
  | .acsidevError k => .regRdAcsidevError k now
  | .acsidevSectors k => .regRdAcsidevSectors k now
  | .acsidevFlags k => .regRdAcsidevFlags k now
  | .acsidevCurLba k => .regRdAcsidevCurLba k now
  | .acsidevCmd k 0 => .regRdAcsidevCmd0 k now
  | .acsidevCmd k 1 => .regRdAcsidevCmd1 k now
  | .acsidevCmd k 2 => .regRdAcsidevCmd2 k now
  | .acsidevCmd k 3 => .regRdAcsidevCmd3 k now
  | .acsidevCmd k 4 => .regRdAcsidevCmd4 k now
  | .acsidevCmd k 5 => .regRdAcsidevCmd5 k now

/-- The instruction of a register write, the value cut to the register's width. -/
def writeInstr (r : WriteReg) (value : BitVec 32) (now : Clock) : Instr :=
  match r with
  | .engineCfg => .regWrEngineCfg (value.setWidth 8) now
  | .aciaCr i => if i = 0 then .regWrAcia0Cr (value.setWidth 8) now else .regWrAcia1Cr (value.setWidth 8) now
  | .aciaTdr i => if i = 0 then .regWrAcia0Tdr (value.setWidth 8) now else .regWrAcia1Tdr (value.setWidth 8) now
  | .dmaMcr => .regWrDmaMcr (value.setWidth 16) now
  | .dmaSct => .regWrDmaSct value now
  | .dmaAddr => .regWrDmaAddr value now
  | .fddCpb d => .regWrFddCpb d value now
  | .acsibusByte => .regWrAcsibusByte (value.setWidth 8) now

/-- REG_RD: the register's instruction, or the operation's own where the pair names no readable register. -/
def decodeRegRd (p : Params) (unit : BitVec 8) (reg : BitVec 16) (now : Clock) : Instr :=
  match readRegAt p unit reg with
  | some r => readInstr r now
  | none => .regRd unit reg now

/-- REG_WR: the register's instruction if it accepts the value (the width check of R352 applies only to an existing
writable register), or the operation's own where the pair names no writable register. -/
def decodeRegWr (p : Params) (unit : BitVec 8) (reg : BitVec 16) (value : BitVec 32) (now : Clock) :
    Except ErrCode Instr :=
  match writeRegAt unit reg with
  | some r => ifClear (r.accepts p value) (writeInstr r value now)
  | none => .ok (.regWr unit reg value now)

/-- The bits of TIME above a `now`, which is `TIME[CW-1:0]` (R107), are zero (R101). -/
def nowFits (p : Params) (time : BitVec 64) : Bool := time.toNat < 2 ^ p.cw

/-- The operand `delay`: TIME cut to `CW` bits (R107). -/
def delayOf (p : Params) (time : BitVec 64) : Clock := BitVec.ofNat 64 (time.toNat % 2 ^ p.cw)

/-- The bits of TIME above a delay are its sign extension (R101). -/
def delayFits (p : Params) (time : BitVec 64) : Bool := (time.toNat : Int).bmod (2 ^ p.cw) == time.toInt

/-- The bits of PARAM above a `param`, which is PARAM carried unchanged (R107), are zero (R102). -/
def paramFits (p : Params) (param : BitVec 32) : Bool := param.toNat < 2 ^ p.pw

/-- A one-bit operand in PARAM bit 0 (R107). -/
def bit0 (param : BitVec 32) : Bool := param.getLsbD 0

/-- The 96-bit burst value `PARAM ++ TIME` (R106). -/
def burstOf (param : BitVec 32) (time : BitVec 64) : BitVec 96 := (param ++ time).cast rfl

/-- The operation's instruction from the fields, with the must-be-zero checks of R105 (step 3 of R352). -/
def build (p : Params) (op : Op) (c : Cmd) : Except ErrCode Instr :=
  match op with
  | .nop => ifClear (c.sel == 0 && c.idx == 0 && c.param == 0 && c.time == 0) .nop
  | .reset => ifClear (c.sel == 0 && c.idx == 0 && c.param == 0 && c.time == 0) .reset
  | .advance => ifClear (c.sel == 0 && c.idx == 0 && c.param == 0 && nowFits p c.time) (.advance c.time)
  | .schedule =>
    ifClear (c.idx == 0 && paramFits p c.param && delayFits p c.time) (.schedule c.sel c.param (delayOf p c.time))
  | .cancel => ifClear (c.idx == 0 && c.param == 0 && c.time == 0) (.cancel c.sel)
  | .fireAck => ifClear (c.idx == 0 && c.param == 0 && c.time == 0) (.fireAck c.sel)
  | .agQuery => ifClear (c.idx == 0 && c.param == 0 && c.time == 0) (.agQuery c.sel)
  | .cbCreate => ifClear (c.idx == 0 && c.time == 0) (.cbCreate c.sel c.param)
  | .cbDestroy => ifClear (c.idx == 0 && c.param == 0 && c.time == 0) (.cbDestroy c.sel)
  | .cbReset => ifClear (c.idx == 0 && c.param == 0 && c.time == 0) (.cbReset c.sel)
  | .cbAddbyte =>
    ifClear (c.idx == 0 && decide (c.param.toNat < 2 ^ 8) && c.time == 0) (.cbAddbyte c.sel (c.param.setWidth 8))
  | .cbAddbytes =>
    ifClear (burstLanesClear c.idx (burstOf c.param c.time)) (.cbAddbytes c.sel c.idx (burstOf c.param c.time))
  | .cbReadbyte => ifClear (c.idx == 0 && c.param == 0 && c.time == 0) (.cbReadbyte c.sel)
  | .cbNextbyte => ifClear (c.idx == 0 && c.param == 0 && c.time == 0) (.cbNextbyte c.sel)
  | .cbArebytes => ifClear (c.idx == 0 && c.param == 0 && c.time == 0) (.cbArebytes c.sel)
  | .cbCount => ifClear (c.idx == 0 && c.param == 0 && c.time == 0) (.cbCount c.sel)
  | .regRd => ifClear (c.param == 0 && nowFits p c.time) (decodeRegRd p c.sel c.idx c.time)
  | .regWr =>
    if nowFits p c.time then decodeRegWr p c.sel c.idx c.param c.time else .error .reserved
  | .aciaRxbyte =>
    ifClear (c.idx == 0 && decide (c.param.toNat < 2 ^ 8) && nowFits p c.time)
      (.aciaRxbyte c.sel (c.param.setWidth 8) c.time)
  | .fddMount =>
    ifClear (decide (c.param.toNat < 2 ^ 2) && c.time == 0) (.fddMount c.sel c.idx (bit0 c.param) (c.param.getLsbD 1))
  | .fddUnmount => ifClear (c.idx == 0 && c.param == 0 && c.time == 0) (.fddUnmount c.sel)
  | .fddMotor =>
    ifClear (c.idx == 0 && decide (c.param.toNat < 2) && nowFits p c.time) (.fddMotor c.sel (bit0 c.param) c.time)
  | .fddStep =>
    ifClear (c.idx == 0 && decide (c.param.toNat < 2) && nowFits p c.time) (.fddStep c.sel (bit0 c.param) c.time)
  | .fddRead =>
    ifClear (c.idx == 0 && decide (c.param.toNat < 2) && nowFits p c.time) (.fddRead c.sel (bit0 c.param) c.time)
  | .fddWrite =>
    ifClear (c.idx == 0 && decide (c.param.toNat < 2) && nowFits p c.time) (.fddWrite c.sel (bit0 c.param) c.time)
  | .fddConv => ifClear (c.sel == 0 && (c.idx != 0 || c.param == 0) && c.time == 0) (.fddConv c.idx c.param)
  | .acsiAttach => ifClear (c.time == 0) (.acsiAttach c.sel c.idx c.param)
  | .acsiDetach => ifClear (c.idx == 0 && c.param == 0 && c.time == 0) (.acsiDetach c.sel)

/-- Decode the fields of a command that came on a port: steps 1 to 3 of 60_exceptions.md R352, in their order. -/
def decodeCmd (p : Params) (port : Port) (c : Cmd) : Except ErrCode Instr :=
  match opOf c.op with
  | none => .error .illegalOp
  | some op => if port = .X ∧ op.onPortX = false then .error .priv else build p op c

/-- Decode a command word that came on a port (30_encoding.md R109: total, one instruction or one error code). -/
def decode (p : Params) (port : Port) (w : Word128) : Except ErrCode Instr := decodeCmd p port (Cmd.ofWord w)

/-- The instruction of an internal identity that no chip owns (30_encoding.md R118). -/
def reservedOf (c : CbId) : Instr :=
  match c.val with
  | 9 => .cbReserved9
  | 10 => .cbReserved10 0
  | 11 => .cbReserved10 1
  | n => .cbReserved12 (Fin.ofNat 244 (n - 12))

/-- The instruction of a callback identity (30_encoding.md R118): the chips' nine, then the reserved ones below `NCB_INT`,
then the host's. -/
def callbackOf (p : Params) (c : CbId) : Instr :=
  match c.val with
  | 0 => .cbAcia0Tx
  | 1 => .cbAcia0Rx
  | 2 => .cbAcia1Tx
  | 3 => .cbAcia1Rx
  | 4 => .cbFdd0Index
  | 5 => .cbFdd1Index
  | 6 => .cbFdd0Xfer
  | 7 => .cbFdd1Xfer
  | 8 => .cbAcsiBlock
  | n => if n < p.ncbInt then reservedOf c else .cbExt (Fin.ofNat 256 (n - p.ncbInt))

/-- Decode an 8-bit callback identity: there is none at or above `NCB`. -/
def decodeCallback (p : Params) (id : BitVec 8) : Option Instr :=
  if id.toNat < p.ncb then some (callbackOf p id.toFin) else none

/-- Decode a 48-bit ACSI command block, byte 0 most significant (30_encoding.md R119, R120): every block is a command,
an opcode without a rule of its own being the invalid one. -/
def decodeAcsi (w : BitVec 48) : Instr :=
  let dev : Dev := (w.extractLsb' 45 3).toFin
  let op : BitVec 5 := w.extractLsb' 40 5
  let lba : BitVec 24 := w.extractLsb' 16 24
  let count : Byte := w.extractLsb' 8 8
  let ctrl : Byte := w.extractLsb' 0 8
  match op.toNat with
  | 0x00 => .acsiReady dev lba count ctrl
  | 0x03 => .acsiRequestSense dev lba count ctrl
  | 0x04 => .acsiFormat dev lba count ctrl
  | 0x08 => .acsiRead dev lba count ctrl
  | 0x0a => .acsiWrite dev lba count ctrl
  | 0x0b => .acsiSeek dev lba count ctrl
  | 0x12 => .acsiInquiry dev lba count ctrl
  | 0x15 => .acsiModeSelect dev lba count ctrl
  | _ => .acsiInvalid dev op lba count ctrl

/-- What the machine fetches: a command word from a port, a callback identity from the Agenda, or a command block from
an ACSI device's buffer. -/
inductive Raw where
  | command (w : Word128)
  | callback (id : BitVec 8)
  | acsi (w : BitVec 48)
deriving DecidableEq, Repr

/-- The instruction something fetched stands for; a command is one of port E. -/
def decodeRaw (p : Params) : Raw → Option Instr
  | .command w => (decode p .E w).toOption
  | .callback id => decodeCallback p id
  | .acsi w => some (decodeAcsi w)

/-- What the bits of a row of spec/opcode_table.json are fetched as: 8-bit rows are callback identities, 48-bit rows ACSI
command blocks (byte 0 most significant), the others command words. -/
def rawOf (nbits w : Nat) : Raw :=
  if nbits = 8 then .callback (BitVec.ofNat 8 w)
  else if nbits = 48 then .acsi (BitVec.ofNat 48 w)
  else .command (BitVec.ofNat 128 w)

/-- The instruction read from the bits of a row of spec/opcode_table.json, the parameters at their defaults. -/
def decodeTableWord (nbits w : Nat) : Option Instr := decodeRaw .default (rawOf nbits w)

/-! ### The encoder -/

/-- A command word from its fields. -/
def command (op sel : BitVec 8) (idx : BitVec 16) (param : BitVec 32) (time : BitVec 64) : Raw :=
  .command (Cmd.toWord ⟨op, sel, idx, param, time⟩)

/-- The TIME field of a delay: sign-extended (R101). -/
def timeOfDelay (p : Params) (delay : Clock) : BitVec 64 := BitVec.ofInt 64 ((delay.toNat : Int).bmod (2 ^ p.cw))

/-- A REG_RD word (R105, R110). -/
def regRdWord (unit : Nat) (reg : Nat) (now : Clock) : Raw :=
  command 0x30 (BitVec.ofNat 8 unit) (BitVec.ofNat 16 reg) 0 now

/-- A REG_WR word (R105, R110). -/
def regWrWord (unit : Nat) (reg : Nat) (value : BitVec 32) (now : Clock) : Raw :=
  command 0x31 (BitVec.ofNat 8 unit) (BitVec.ofNat 16 reg) value now

/-- PARAM bit 0 from a one-bit operand. -/
def ofBit0 (b : Bool) : BitVec 32 := if b then 1 else 0

/-- An ACSI command block: `dddooooo`, the address, the count, the control byte (R119). -/
def acsiWord (dev : Dev) (op : BitVec 5) (lba : BitVec 24) (count ctrl : Byte) : Raw :=
  .acsi ((BitVec.ofNat 3 dev.val ++ op ++ lba ++ count ++ ctrl).cast rfl)

/-- The bits of an instruction: a `now` is zero above its `CW` bits (R101), a `param` above its `PW` bits. -/
def encode (p : Params) : Instr → Raw
  | .nop => command 0x00 0 0 0 0
  | .reset => command 0x01 0 0 0 0
  | .advance now => command 0x10 0 0 0 now
  | .schedule cb param delay => command 0x11 cb 0 param (timeOfDelay p delay)
  | .cancel cb => command 0x12 cb 0 0 0
  | .fireAck cb => command 0x13 cb 0 0 0
  | .agQuery cb => command 0x14 cb 0 0 0
  | .cbCreate buf size => command 0x20 buf 0 size 0
  | .cbDestroy buf => command 0x21 buf 0 0 0
  | .cbReset buf => command 0x22 buf 0 0 0
  | .cbAddbyte buf byte => command 0x23 buf 0 (byte.setWidth 32) 0
  | .cbAddbytes buf len burst => command 0x24 buf len (burst.extractLsb' 64 32) (burst.extractLsb' 0 64)
  | .cbReadbyte buf => command 0x25 buf 0 0 0
  | .cbNextbyte buf => command 0x26 buf 0 0 0
  | .cbArebytes buf => command 0x27 buf 0 0 0
  | .cbCount buf => command 0x28 buf 0 0 0
  | .regRd unit reg now => command 0x30 unit reg 0 now
  | .regWr unit reg value now => command 0x31 unit reg value now
  | .aciaRxbyte inst byte now => command 0x40 inst 0 (byte.setWidth 32) now
  | .fddMount slot handle ss gh => command 0x41 slot handle (ofBit0 ss ||| (if gh then 2 else 0)) 0
  | .fddUnmount slot => command 0x42 slot 0 0 0
  | .fddMotor drive on now => command 0x43 drive 0 (ofBit0 on) now
  | .fddStep drive dir now => command 0x44 drive 0 (ofBit0 dir) now
  | .fddRead drive side now => command 0x45 drive 0 (ofBit0 side) now
  | .fddWrite drive side now => command 0x46 drive 0 (ofBit0 side) now
  | .fddConv fn arg => command 0x47 0 fn arg 0
  | .acsiAttach dev handle sectors => command 0x48 dev handle sectors 0
  | .acsiDetach dev => command 0x49 dev 0 0 0
  | .regRdEngineCfg now => regRdWord 0 0 now
  | .regWrEngineCfg value now => regWrWord 0 0 (value.setWidth 32) now
  | .regRdEngineStatus now => regRdWord 0 1 now
  | .regRdEngineNow now => regRdWord 0 2 now
  | .regRdEnginePending now => regRdWord 0 3 now
  | .regWrAcia0Cr value now => regWrWord 1 0 (value.setWidth 32) now
  | .regRdAcia0Sr now => regRdWord 1 0 now
  | .regWrAcia0Tdr value now => regWrWord 1 1 (value.setWidth 32) now
  | .regRdAcia0Rdr now => regRdWord 1 1 now
  | .regRdAcia0Cr now => regRdWord 1 2 now
  | .regRdAcia0Flags now => regRdWord 1 3 now
  | .regRdAcia0Tdrs now => regRdWord 1 4 now
  | .regRdAcia0Rdrs now => regRdWord 1 5 now
  | .regRdAcia0LastTxWrite now => regRdWord 1 6 now
  | .regWrAcia1Cr value now => regWrWord 2 0 (value.setWidth 32) now
  | .regRdAcia1Sr now => regRdWord 2 0 now
  | .regWrAcia1Tdr value now => regWrWord 2 1 (value.setWidth 32) now
  | .regRdAcia1Rdr now => regRdWord 2 1 now
  | .regRdAcia1Cr now => regRdWord 2 2 now
  | .regRdAcia1Flags now => regRdWord 2 3 now
  | .regRdAcia1Tdrs now => regRdWord 2 4 now
  | .regRdAcia1Rdrs now => regRdWord 2 5 now
  | .regRdAcia1LastTxWrite now => regRdWord 2 6 now
  | .regWrDmaMcr value now => regWrWord 3 0 (value.setWidth 32) now
  | .regRdDmaStatus now => regRdWord 3 0 now
  | .regWrDmaSct value now => regWrWord 3 1 value now
  | .regRdDmaSct now => regRdWord 3 1 now
  | .regWrDmaAddr value now => regWrWord 3 2 value now
  | .regRdDmaAddr now => regRdWord 3 2 now
  | .regRdDmaBct now => regRdWord 3 3 now
  | .regRdDmaFifoctl now => regRdWord 3 4 now
  | .regRdDmaMcr now => regRdWord 3 5 now
  | .regRdDmaFifo0 j now => regRdWord 3 (16 + j.val) now
  | .regRdDmaFifo1 j now => regRdWord 3 (32 + j.val) now
  | .regRdFddTrack drive now => regRdWord (4 + drive.val) 0 now
  | .regRdFddFlags drive now => regRdWord (4 + drive.val) 1 now
  | .regRdFddBytepos drive now => regRdWord (4 + drive.val) 2 now
  | .regRdFddCpb drive now => regRdWord (4 + drive.val) 3 now
  | .regWrFddCpb drive value now => regWrWord (4 + drive.val) 3 value now
  | .regRdFddTlast drive now => regRdWord (4 + drive.val) 4 now
  | .regRdFddTnext drive now => regRdWord (4 + drive.val) 5 now
  | .regRdFddCond drive now => regRdWord (4 + drive.val) 6 now
  | .regRdFdd2Flags now => regRdWord 6 1 now
  | .regWrAcsibusByte value now => regWrWord 7 0 (value.setWidth 32) now
  | .regRdAcsibusStatus now => regRdWord 7 0 now
  | .regRdAcsibusOwner now => regRdWord 7 1 now
  | .regRdAcsidevPhase dev now => regRdWord (8 + dev.val) 0 now
  | .regRdAcsidevStatus dev now => regRdWord (8 + dev.val) 1 now
  | .regRdAcsidevError dev now => regRdWord (8 + dev.val) 2 now
  | .regRdAcsidevSectors dev now => regRdWord (8 + dev.val) 3 now
  | .regRdAcsidevFlags dev now => regRdWord (8 + dev.val) 4 now
  | .regRdAcsidevCurLba dev now => regRdWord (8 + dev.val) 5 now
  | .regRdAcsidevCmd0 dev now => regRdWord (8 + dev.val) 8 now
  | .regRdAcsidevCmd1 dev now => regRdWord (8 + dev.val) 9 now
  | .regRdAcsidevCmd2 dev now => regRdWord (8 + dev.val) 10 now
  | .regRdAcsidevCmd3 dev now => regRdWord (8 + dev.val) 11 now
  | .regRdAcsidevCmd4 dev now => regRdWord (8 + dev.val) 12 now
  | .regRdAcsidevCmd5 dev now => regRdWord (8 + dev.val) 13 now
  | .cbAcia0Tx => .callback 0
  | .cbAcia0Rx => .callback 1
  | .cbAcia1Tx => .callback 2
  | .cbAcia1Rx => .callback 3
  | .cbFdd0Index => .callback 4
  | .cbFdd1Index => .callback 5
  | .cbFdd0Xfer => .callback 6
  | .cbFdd1Xfer => .callback 7
  | .cbAcsiBlock => .callback 8
  | .cbReserved9 => .callback 9
  | .cbReserved10 n => .callback (BitVec.ofNat 8 (10 + n.val))
  | .cbReserved12 n => .callback (BitVec.ofNat 8 (12 + n.val))
  | .cbExt n => .callback (BitVec.ofNat 8 (p.ncbInt + n.val))
  | .acsiReady dev lba count ctrl => acsiWord dev 0x00 lba count ctrl
  | .acsiRequestSense dev lba count ctrl => acsiWord dev 0x03 lba count ctrl
  | .acsiFormat dev lba count ctrl => acsiWord dev 0x04 lba count ctrl
  | .acsiRead dev lba count ctrl => acsiWord dev 0x08 lba count ctrl
  | .acsiWrite dev lba count ctrl => acsiWord dev 0x0a lba count ctrl
  | .acsiSeek dev lba count ctrl => acsiWord dev 0x0b lba count ctrl
  | .acsiInquiry dev lba count ctrl => acsiWord dev 0x12 lba count ctrl
  | .acsiModeSelect dev lba count ctrl => acsiWord dev 0x15 lba count ctrl
  | .acsiInvalid dev op lba count ctrl => acsiWord dev op lba count ctrl

end Sys2Proof
end

