-- ==== Sys2Proof/Machine/Fetch.lean ====
section
/-! DEFINITION. What the machine does next. Port E has, in this order: the running dispatch loop (40_agenda.md R133), a
device's complete command (45_acsi.md R303), the command at the head of its queue. Port X has the command at the head of
its queue. Between the two the order is free and weakly fair (20_memory.md R86, R89; log entries 4 and 25). The file also
says how an instruction is placed where the machine fetches it (log entries 3 and 17). -/

namespace Sys2Proof.Machine

/-- What a step does. -/
inductive Work where
  /-- Nothing: no command is being served and none waits (60_exceptions.md R371). -/
  | idle
  /-- A response without an instruction: a refused word, or the end of the dispatch loop. -/
  | reply (s : State)
  /-- An instruction, run in a state. -/
  | run (i : Instr) (s : State)
deriving DecidableEq, Repr

/-- The head command of a port decoded (30_encoding.md R109), or the refusal of it. -/
def fetchCommand (p : Port) (w : Word128) (s : State) : Work :=
  match decode s.par p w with
  | .ok i => .run i s
  | .error e => .reply (refuse e s)

/-- A turn of the dispatch loop (40_agenda.md R133): the callback to run, or the end of the loop. -/
def fetchCallback (s : State) : Work :=
  match chooseDue s with
  | some (c, s) => .run (callbackOf s.par c) s
  | none => .reply (finishDispatch s)

/-- Port E's work, if it has any. -/
def fetchE (s : State) : Option Work :=
  let s := { s with serving := .E }
  if s.disp = .scan then some (fetchCallback s)
  else match s.acsiPending with
    | some k => some (.run (decodeAcsi (acsiBlock k (s.acsi[k]).cmd)) s)
    | none => s.portE.queue.head?.map fun w => fetchCommand .E w s

/-- Port X's work, if it has any. -/
def fetchX (s : State) : Option Work :=
  let s := { s with serving := .X }
  s.portX.queue.head?.map fun w => fetchCommand .X w s

/-- A port's work, if it has any. -/
def fetchPort (p : Port) (s : State) : Option Work :=
  match p with
  | .E => fetchE s
  | .X => fetchX s

/-- The port that is not this one. -/
def otherPort : Port → Port
  | .E => .X
  | .X => .E

/-- The port that moves when both have work, with how many more such contests it wins: the favoured port while it has turns
left, then the other one, for a free number of them. Every order is one of these but those that pass a waiting port over for
ever, which 20_memory.md R89 excludes (log entries 4 and 25). -/
def nextTurn (c : Choices) : Port × Nat :=
  match c.favour with
  | none => (if Config.portTurn c.taken then .E else .X, Config.portBurst c.taken)
  | some (p, n + 1) => (p, n)
  | some (p, 0) => (otherPort p, Config.portBurst c.taken)

/-- The free choices after a contest. -/
def Choices.contest (c : Choices) : Choices := { taken := c.taken + 1, favour := some (nextTurn c) }

/-- What the machine does next. -/
def fetch (s : State) : Work :=
  match fetchE s, fetchX s with
  | none, none => .idle
  | some e, none => e
  | none, some x => x
  | some _, some _ =>
    (fetchPort (nextTurn s.picks).1 { s with picks := s.picks.contest }).getD .idle

/-! ### Placing an instruction where it is fetched -/

/-- A command word as port E's only command, nothing else to do. -/
def placeCommand (w : Word128) (s : State) : State :=
  { s with
    disp := .idle
    acsiPending := none
    portE := { s.portE with queue := [w] }
    portX := { s.portX with queue := [] } }

/-- The ADVANCE word with a time (30_encoding.md R105). -/
def advanceWord (now : Clock) : Word128 := Cmd.toWord ⟨0x10, 0, 0, 0, now⟩

/-- The REG_WR word of a bus byte (30_encoding.md R115). -/
def busByteWord (v : Byte) (now : Clock) : Word128 := Cmd.toWord ⟨0x31, 7, 0, v.setWidth 32, now⟩

/-- The `param` a chip schedules its callback with: the instance, drive or device (42_acia.md R195, 44_floppy.md R266). -/
def naturalParam (c : CbId) : Param :=
  if c.val = 2 ∨ c.val = 3 ∨ c.val = 5 ∨ c.val = 7 then 1 else 0

/-- A callback identity as the only pending entry, due now, inside a running ADVANCE. -/
def placeCallback (c : CbId) (s : State) : State :=
  { placeCommand (advanceWord s.now) s with
    ag := (Vector.replicate 256 none).set c (some { fireTime := s.now, param := naturalParam c })
    disp := .scan
    advTarget := s.now }

/-- A command block as the complete command of the device it names (45_acsi.md R303), attached if it was absent. -/
def placeBlock (w : BitVec 48) (s : State) : State :=
  let k : Dev := (w.extractLsb' 45 3).toFin
  let cmd : Vector Byte 6 := #v[w.extractLsb' 40 8 &&& 0x1f, w.extractLsb' 32 8, w.extractLsb' 24 8,
    w.extractLsb' 16 8, w.extractLsb' 8 8, w.extractLsb' 0 8]
  let s := placeCommand (busByteWord cmd[5] s.now) s
  let a := s.acsi[k]
  { s with
    acsi := s.acsi.set k { a with present := true, image := some (a.image.getD 0), cmd := cmd, phase := 6 }
    acsiDev := k
    acsiPending := some k }

/-- What decoding reads, stored where the next step fetches it. A callback number that is no identity is no
instruction: the state stays. -/
def placeRaw (r : Raw) (s : State) : State :=
  match r with
  | .command w => placeCommand w s
  | .callback id => if id.toNat < s.par.ncb then placeCallback id.toFin s else s
  | .acsi w => placeBlock w s

end Sys2Proof.Machine
end

