-- ==== Sys2Proof/Machine/Step.lean ====
section
/-! DEFINITION. One step of the machine: fetch, then the instruction's meaning. -/

namespace Sys2Proof.Machine

/-- One step (00_scope.md R12, 46_cross_family.md R332): one command, one turn of the dispatch loop, one dispatch of an
ACSI command, or, when there is no work, nothing. -/
def step (s : State) : Host.Outcome State Fault Refusal :=
  match fetch s with
  | .idle => .next s
  | .reply s' => .next s'
  | .run i s' => exec i s'

/-- `s` with the instruction of a row of spec/opcode_table.json stored where the next step fetches it: a callback as a due
Agenda entry of a running ADVANCE, a command block as a device's complete command, a command word at port E (log entries 3
and 17). -/
def State.withFetchWord (s : State) (nbits w : Nat) : State := placeRaw (rawOf nbits w) s

end Sys2Proof.Machine
end

