-- ==== Sys2Proof/Safety.lean ====
section
/-! DEFINITION. What counts as a safe state and as a run inside the software's contract. The first part states the
invariants the spec gives (10_state.md R31, R36, R41, R45, R50, the canonical form of memory), which every step keeps. The
second states the contracts of 70_reset_and_hazards.md that the hardware does not enforce (R401, R402, R405, R408): a run
that breaks one still runs (log entries 21 and 24), and is outside the contract; a claim that needs the contract carries it
as a hypothesis. -/

namespace Sys2Proof.Machine

/-! ### Invariants -/

/-- Memory is canonical. -/
def MemoryOk (s : State) : Prop := Memory.wf s.par.dmaAddrW s.mem = true

/-- One ACIA (10_state.md R33, R36): the interrupt flag is the formula, the pin has its level, the two enables are what the
control register says. -/
structure AciaOk (s : State) (i : Fin 2) : Prop where
  irq : (s.acia[i]).irq = (s.acia[i]).irqFormula
  pin : s.pins.level (aciaLine i) = (s.acia[i]).irq
  rxIrqEn : (s.acia[i]).rxIrqEn = (s.acia[i]).cr.getLsbD 7
  txIrqEn : (s.acia[i]).txIrqEn = ((s.acia[i]).cr.extractLsb' 5 2 == 1)

/-- The lines of one ACIA: each is busy exactly while its completion is pending, and a byte waits in `TDR` only behind a
busy transmitter (42_acia.md R192, R195, R199, R206 to R209). -/
structure LinesOk (s : State) (i : Fin 2) : Prop where
  tx : (s.acia[i]).lineBusyTx = (s.ag[aciaTxId i]).isSome
  rx : (s.acia[i]).lineBusyRx = (s.ag[aciaRxId i]).isSome
  waiting : (s.acia[i]).tdre = false → (s.acia[i]).lineBusyTx = true

/-- The DMA counters (10_state.md R41): the byte counter is a multiple of 16 below a sector. -/
structure DmaOk (s : State) : Prop where
  halves : s.dma.bct.toNat % 16 = 0
  below : s.dma.bct.toNat < s.par.dmaSectorBytes.toNat

/-- One drive (10_state.md R43, R45, R46; 44_floppy.md R262, R263, R266, R273, R280). An empty one has both disk flags
clear, so that unmounting it changes nothing. -/
structure DriveOk (s : State) (d : Fin 2) : Prop where
  pulse : (s.fdd[driveSlot d]).motor = true →
    (s.ag[fddIndexId d]).map (·.fireTime) = some (s.fdd[driveSlot d]).tNext
  period : (s.fdd[driveSlot d]).motor = true →
    (s.fdd[driveSlot d]).tNext = s.par.tadd (s.fdd[driveSlot d]).tLast ((s.fdd[driveSlot d]).rotation s.par)
  one : ¬((s.fdd[driveSlot d]).reading = true ∧ (s.fdd[driveSlot d]).writing = true)
  transfer : (s.fdd[driveSlot d]).busy = (s.ag[fddXferId d]).isSome
  disk : (s.fdd[driveSlot d]).busy = true → (s.fdd[driveSlot d]).disk.isSome = true
  spins : (s.fdd[driveSlot d]).busy = true → (s.fdd[driveSlot d]).motor = true
  cpb : (s.fdd[driveSlot d]).cpb ≠ 0
  track : (s.fdd[driveSlot d]).track.toNat ≤ s.par.fddMaxTrack.toNat
  bytes : (s.fdd[driveSlot d]).reading = true → (s.fdd[driveSlot d]).xfBuf.length = (s.fdd[driveSlot d]).xfSize
  flags : (s.fdd[driveSlot d]).disk = none →
    (s.fdd[driveSlot d]).singleSided = false ∧ (s.fdd[driveSlot d]).ghost = false

/-- The inspection slot holds only a disk and its two flags (10_state.md R47), which are clear while it is empty
(44_floppy.md R262, R263). -/
structure InspectionOk (s : State) : Prop where
  only : s.fdd[(2 : Fin 3)] =
    { Fdd.cold s.par with
      disk := (s.fdd[(2 : Fin 3)]).disk
      singleSided := (s.fdd[(2 : Fin 3)]).singleSided
      ghost := (s.fdd[(2 : Fin 3)]).ghost }
  flags : (s.fdd[(2 : Fin 3)]).disk = none →
    (s.fdd[(2 : Fin 3)]).singleSided = false ∧ (s.fdd[(2 : Fin 3)]).ghost = false

/-- The ACSI bus (10_state.md R48 to R50; 45_acsi.md R301 to R303, R319, R320): at most the owner is not idle, an absent
device is idle and has no image and no sectors, the owner in phase 6 either has its command to dispatch or its next block
pending. -/
structure AcsiOk (s : State) : Prop where
  others : ∀ k : Dev, k ≠ s.acsiDev → (s.acsi[k]).phase = 7
  absent : ∀ k : Dev, (s.acsi[k]).present = false → (s.acsi[k]).phase = 7
  image : ∀ k : Dev, (s.acsi[k]).present = (s.acsi[k]).image.isSome
  sectors : ∀ k : Dev, (s.acsi[k]).present = false → (s.acsi[k]).sectors = 0
  opcode : ∀ k : Dev, ((s.acsi[k]).cmd[0]).toNat < 32
  started : (s.acsi[s.acsiDev]).phase ≠ 0
  owed : s.acsiPending ≠ none →
    s.acsiPending = some s.acsiDev ∧ (s.acsi[s.acsiDev]).phase = 6 ∧ (s.ag[acsiBlockId]).isSome = false
  timed : (s.ag[acsiBlockId]).isSome = true →
    s.acsiPending = none ∧ (s.acsi[s.acsiDev]).phase = 6 ∧ 0 < s.ax.left ∧
      (s.ag[acsiBlockId]).map (·.param) = some (BitVec.ofNat 32 s.acsiDev.val)
  six : (s.acsi[s.acsiDev]).phase = 6 → s.acsiPending.isSome = true ∨ (s.ag[acsiBlockId]).isSome = true

/-- One buffer (10_state.md R30, R31; 41_circular_buffer.md R163): the flag is free between steps, a live buffer's cursors
are indices of its store. -/
structure CircBuf.Ok (c : CircBuf) : Prop where
  free : c.mx = false
  length : c.store.length = c.cap
  inert : c.cap = 0 → c.rd = 0 ∧ c.wr = 0
  live : c.cap ≠ 0 → 2 ≤ c.cap ∧ c.rd < c.cap ∧ c.wr < c.cap

/-- Every unread slot has been written (10_state.md R58). -/
def CircBuf.Written (c : CircBuf) : Prop := c.content.all Option.isSome = true

/-- The buffers: each in its form, and no capacity above `CB_MAXCAP`. -/
def BuffersOk (s : State) : Prop := ∀ b : BufId, (s.cb[b]).Ok ∧ (s.cb[b]).cap ≤ s.par.cbMaxcap

/-- The operation of the word at the head of port E. -/
def headOp (s : State) : Option Op := s.portE.queue.head?.bind fun w => opOf (Cmd.ofWord w).op

/-- The dispatcher (10_state.md R25; 60_exceptions.md R359): a running loop has its ADVANCE or FIRE_ACK in service, an owed
dispatch of a device has its bus write, and what waits for an acknowledge is an external identity. -/
structure DispatchOk (s : State) : Prop where
  scan : s.disp = .scan → headOp s = some .advance ∨ headOp s = some .fireAck
  owed : s.acsiPending ≠ none → headOp s = some .regWr
  external : s.disp = .waitAck → s.par.ncbInt ≤ s.fireCb.toNat ∧ s.fireCb.toNat < s.par.ncb

/-- Every field within the width, and every slot within the count, that the parameters give it (00_scope.md R8; 10_state.md
R22, R24, R25, R30, R33, R38, R43, R48, R49, R59). -/
structure WidthsOk (s : State) : Prop where
  now : s.now.toNat < 2 ^ s.par.cw
  target : s.advTarget.toNat < 2 ^ s.par.cw
  fired : s.fireTime.toNat < 2 ^ s.par.cw ∧ s.fireParam.toNat < 2 ^ s.par.pw
  entries : ∀ (c : CbId) (e : AgEntry), s.ag[c] = some e →
    c.val < s.par.ncb ∧ e.fireTime.toNat < 2 ^ s.par.cw ∧ e.param.toNat < 2 ^ s.par.pw
  buffers : ∀ b : BufId, s.par.nbuf ≤ b.val → (s.cb[b]).cap = 0
  capacities : ∀ b : BufId, (s.cb[b]).cap < 2 ^ 17
  writes : ∀ i : Fin 2, (s.acia[i]).lastTxWrite.toNat < 2 ^ s.par.cw
  counter : s.dma.sct.toNat < 2 ^ s.par.dmaSctW
  address : s.dma.addr.toNat < 2 ^ s.par.dmaAddrW
  pulses : ∀ d : Fin 3, (s.fdd[d]).tNext.toNat < 2 ^ s.par.cw ∧ (s.fdd[d]).tLast.toNat < 2 ^ s.par.cw
  steps : ∀ (d : Fin 2) (t : Clock), s.lastStep[d] = some t → t.toNat < 2 ^ s.par.cw
  devices : ∀ k : Dev, s.par.acsiNdev ≤ k.val → (s.acsi[k]).present = false
  owner : s.acsiDev.val < s.par.acsiNdev
  owed : ∀ k : Dev, s.acsiPending = some k → k.val < s.par.acsiNdev

/-! ### Terms of claims -/

/-- Whether a port has work: a word waits on it, or, on port E, the dispatch loop runs or a device's command is owed. -/
def hasWork (s : State) : Port → Bool
  | .E => s.disp == .scan || s.acsiPending.isSome || !s.portE.queue.isEmpty
  | .X => !s.portX.queue.isEmpty

/-- Whether a time-carrying command passes the checks that come before the clock is compared (60_exceptions.md R352, steps
3, 4 and 6), but for ADVANCE's own. -/
def passesChecks (p : Params) : Instr → Bool
  | .regRd unit reg _ => (readRegAt p unit reg).isSome
  | .regWr unit reg value _ => (writeRegAt unit reg).any (·.accepts p value)
  | .regWrEngineCfg value _ => value.toNat < 2
  | .regWrDmaSct value _ => value.toNat < 2 ^ p.dmaSctW
  | .regWrDmaAddr value _ => value.toNat < 2 ^ p.dmaAddrW
  | .aciaRxbyte sel _ _ => sel.toNat < 2
  | .fddMotor sel _ _ => sel.toNat < 2
  | .fddStep sel _ _ => sel.toNat < 2
  | .fddRead sel _ _ => sel.toNat < 2
  | .fddWrite sel _ _ => sel.toNat < 2
  | _ => true

/-- The event of a pin set to a level, if it changes (60_exceptions.md R355). -/
def pinEdge (s : State) (line : IrqLine) (level : Bool) : List Event :=
  if s.pins.level line = level then [] else [.irq line level]

/-- The port whose command is being served. -/
def servedPort (s : State) : PortIO :=
  match s.serving with
  | .E => s.portE
  | .X => s.portX

/-- Instructions run one after another, if each answers a next state. -/
def runAll : List Instr → State → Option State
  | [], s => some s
  | i :: rest, s =>
    match exec i s with
    | .next t => runAll rest t
    | .fault _ => none
    | .refused _ => none

/-! ### Contracts of the software -/

/-- Every pending fire time is within `2^(CW-1) - 1` cycles of a time, in either direction (R408). -/
def HalfRangeOf (t : Clock) (s : State) : Prop :=
  ∀ (c : CbId) (e : AgEntry), s.ag[c] = some e → -(2 ^ (s.par.cw - 1) : Int) < s.par.sdiff e.fireTime t

/-- Every pending fire time is less than half the range from `NOW` (R408). -/
def HalfRange (s : State) : Prop := HalfRangeOf s.now s

/-- The sector an FDD_READ or FDD_WRITE at a time finds under the head, as its number and size (44_floppy.md R273). -/
def sectorUnderHead (d : Fin 2) (side : Bool) (now : Clock) (s : State) : Option (Sector × Nat) :=
  let f := s.fdd[driveSlot d]
  f.disk.bind fun h => sectorAt s.disks.layout h f.track side (f.bytePosition s.par now)

/-- The delays, as numbers before any wrap, at which a chip may put an entry into the Agenda while an instruction runs
(46_cross_family.md R330): a byte time (42_acia.md R194), a rotation (44_floppy.md R261), a sector's bytes (R273), a block
time (45_acsi.md R319, R320). -/
def chipDelays (i : Instr) (s : State) : List Nat :=
  let byte := fun k : Fin 2 => (s.acia[k]).byteCycles s.par
  let rotation := fun d : Fin 2 => (s.fdd[driveSlot d]).rotationCycles s.par
  let sector := fun (side : Bool) (now : Clock) (d : Fin 2) =>
    ((sectorUnderHead d side now s).map fun r => r.2 * (s.fdd[driveSlot d]).cpb.toNat).toList
  match i with
  | .regWr unit reg _ _ => if unit = 1 ∧ reg = 1 then [byte 0] else if unit = 2 ∧ reg = 1 then [byte 1] else []
  | .regWrAcia0Tdr _ _ => [byte 0]
  | .regWrAcia1Tdr _ _ => [byte 1]
  | .aciaRxbyte inst _ _ => (index 2 inst).toList.map byte
  | .fddMotor drive _ _ => (index 2 drive).toList.map rotation
  | .fddRead drive side now => (index 2 drive).toList.flatMap (sector side now)
  | .fddWrite drive side now => (index 2 drive).toList.flatMap (sector side now)
  | .cbAcia0Tx => [byte 0]
  | .cbAcia1Tx => [byte 1]
  | .cbFdd0Index => [rotation 0]
  | .cbFdd1Index => [rotation 1]
  | .acsiRead _ _ _ _ => [s.par.acsiBlockCycles.toNat]
  | .acsiWrite _ _ _ _ => [s.par.acsiBlockCycles.toNat]
  | .cbAcsiBlock => [s.par.acsiBlockCycles.toNat]
  | _ => []

/-- The settle time of a drive has passed at a time (R405); with `FDD_SETTLE_CYCLES` unset nothing is asked. -/
def Settled (s : State) (d : Fin 2) (now : Clock) : Prop :=
  ∀ t n, s.lastStep[d] = some t → s.par.fddSettleCycles = some n → (n : Int) ≤ s.par.sdiff now t

/-- A floppy transfer and an ACSI block transfer are not in flight together (R401). -/
def OneDiskUser (s : State) : Prop :=
  (s.ag[acsiBlockId]).isSome = true → ∀ d : Fin 2, (s.fdd[driveSlot d]).busy = false

/-- The ACSI commands that move bytes through the DMA (45_acsi.md R308, R310, R311, R313, R314), all or, in timed mode,
their first block onward. -/
def movesAcsiBytes : Instr → Bool
  | .acsiRequestSense _ _ _ _ => true
  | .acsiRead _ _ _ _ => true
  | .acsiWrite _ _ _ _ => true
  | .acsiInquiry _ _ _ _ => true
  | .acsiModeSelect _ _ _ _ => true
  | _ => false

/-- The drive number, the side and the time of an FDD_READ or FDD_WRITE. -/
def floppyTransfer : Instr → Option (BitVec 8 × Clock)
  | .fddRead drive _ now => some (drive, now)
  | .fddWrite drive _ now => some (drive, now)
  | _ => none

/-- What a command does to a buffer, in the words of 41_circular_buffer.md R162. -/
inductive BufferUse where
  | produces | consumes | lifecycle
deriving DecidableEq, Repr

/-- What an instruction does to which buffer (R162). -/
def bufferUse : Instr → Option (BufferUse × BitVec 8)
  | .cbAddbyte buf _ => some (.produces, buf)
  | .cbAddbytes buf _ _ => some (.produces, buf)
  | .cbReadbyte buf => some (.consumes, buf)
  | .cbNextbyte buf => some (.consumes, buf)
  | .cbArebytes buf => some (.consumes, buf)
  | .cbCount buf => some (.consumes, buf)
  | .cbCreate buf _ => some (.lifecycle, buf)
  | .cbDestroy buf => some (.lifecycle, buf)
  | .cbReset buf => some (.lifecycle, buf)
  | _ => none

/-- Whether a word waiting on a port is a command on a buffer. -/
def waitsFor (p : Params) (port : Port) (buf : BitVec 8) (w : Word128) : Bool :=
  match decode p port w with
  | .ok i => (bufferUse i).any fun u => u.2 == buf
  | .error _ => false

/-- The words of the port that is not being served. -/
def otherQueue (s : State) : Port × List Word128 :=
  match s.serving with
  | .E => (.X, s.portX.queue)
  | .X => (.E, s.portE.queue)

/-- The contract of 70_reset_and_hazards.md for one instruction about to run, `producer` naming the port that adds the
bytes of each buffer. The hardware checks none of it; a run with an instruction outside it is what the spec's *Model* lines
refuse. -/
structure Contract (producer : BufId → Port) (i : Instr) (s : State) : Prop where
  /-- R401: an ACSI command that moves bytes runs with no floppy transfer in flight. -/
  acsiAlone : movesAcsiBytes i = true → ∀ d : Fin 2, (s.fdd[driveSlot d]).busy = false
  /-- R401: a floppy transfer starts with no ACSI transfer in flight. -/
  floppyAlone : (floppyTransfer i).isSome = true → (s.ag[acsiBlockId]).isSome = false
  /-- R402, R162: bytes are added by the buffer's producer. -/
  produces : ∀ b : BufId, bufferUse i = some (.produces, BitVec.ofNat 8 b.val) → s.serving = producer b
  /-- R402, R162: they are read by the other side. -/
  consumes : ∀ b : BufId, bufferUse i = some (.consumes, BitVec.ofNat 8 b.val) → s.serving ≠ producer b
  /-- R162: a lifecycle command runs while the other side is quiet. -/
  lifecycle : ∀ buf, bufferUse i = some (.lifecycle, buf) →
    ∀ w ∈ (otherQueue s).2, waitsFor s.par (otherQueue s).1 buf w = false
  /-- R405: an FDD_READ or FDD_WRITE that the clock accepts comes after the drive's settle time. -/
  settled : ∀ (drive : BitVec 8) (now : Clock), floppyTransfer i = some (drive, now) → 0 ≤ s.par.sdiff now s.now →
    ∀ d : Fin 2, d.val = drive.toNat → Settled s d now
  /-- R408: `NOW` does not move `2^(CW-1)` cycles or more past a pending fire time. -/
  advance : ∀ now, instrTime i = some now → 0 ≤ s.par.sdiff now s.now →
    ∀ (c : CbId) (e : AgEntry), s.ag[c] = some e →
      -(2 ^ (s.par.cw - 1) : Int) < s.par.sdiff e.fireTime s.now - s.par.sdiff now s.now
  /-- R408: a delay is less than `2^(CW-1)` in magnitude. -/
  delay : ∀ cb param d, i = .schedule cb param d → -(2 ^ (s.par.cw - 1) : Int) < s.par.sdiff d 0
  /-- R408, 46_cross_family.md R330: so is a chip's. -/
  chips : ∀ n ∈ chipDelays i s, n < 2 ^ (s.par.cw - 1)

/-- Whether a step's instruction, if it runs one, is inside the contract. -/
def AllowedStep (producer : BufId → Port) (s : State) : Prop :=
  ∀ i u, fetch s = .run i u → Contract producer i u

/-- The register writes of the DMA (43_dma.md R233 to R235). -/
def writesDma : Instr → Bool
  | .regWr unit _ _ _ => unit == 3
  | .regWrDmaMcr _ _ => true
  | .regWrDmaSct _ _ => true
  | .regWrDmaAddr _ _ => true
  | _ => false

end Sys2Proof.Machine
end

