-- ==== Sys2Proof/Certificates/Slice0/Obligations.lean ====
section
/-! DEFINITION. What is claimed of the machine, for the provers. Each docstring says which rules of spec/ a statement
comes from; OBLIGATIONS.json has the list. A response is given by its word, `respWord err flags rcb data time`
(30_encoding.md R103), and by `State.answer`, which puts it on the port whose command is being served (log entry 10). The
parameters of 00_scope.md R8 are those of `s.par`, and `Params.Ok` says which are legal (log entry 6): `s.par.tadd`,
`s.par.sdiff` and `s.par.cycles` are the arithmetic of ClockValues at `CW` bits (R13), `s.par.addrAt` that of addresses at
`DMA_ADDR_W` bits (20_memory.md R74). -/

open Sys2Proof Sys2Proof.Machine

/-! ### Encoding -/

/-- Decoding an encoded well-formed instruction gives it back, in all three encoding spaces under any legal parameters
(30_encoding.md R101, R105, R106, R110 to R116, R118 to R120). -/
def Obligations.DecodeOfEncode : Prop :=
  ∀ (p : Params) (i : Instr), p.Ok → i.wf p = true → decodeRaw p (encode p i) = some i

/-- A word that port E accepts is the encoding of the one instruction it decodes to: no bit is dropped (R102, R109). Every
six-byte block is exactly one ACSI command, every number below `NCB` exactly one callback (R118 to R120). -/
def Obligations.AcceptedWordsHaveOneMeaning : Prop :=
  ∀ p : Params, p.Ok →
    (∀ (w : Word128) (i : Instr), decode p .E w = .ok i → i.wf p = true ∧ encode p i = .command w) ∧
    (∀ w : BitVec 48, (decodeAcsi w).wf p = true ∧ encode p (decodeAcsi w) = .acsi w) ∧
    (∀ id : BitVec 8, id.toNat < p.ncb →
      ∃ i, decodeCallback p id = some i ∧ i.wf p = true ∧ encode p i = .callback id) ∧
    (∀ id : BitVec 8, p.ncb ≤ id.toNat → decodeCallback p id = none)

/-- Rights by port (60_exceptions.md R362) and the place of that check (R352, steps 1 and 2): an unknown operation is
ERR_ILLEGAL_OP on either port; port X may issue NOP and the nine CB operations, which then decode as on port E, and
every other operation is ERR_PRIV there, whatever its other bits. -/
def Obligations.PortRights : Prop :=
  (∀ p port w, opOf (Cmd.ofWord w).op = none → decode p port w = .error .illegalOp) ∧
  (∀ p w op, opOf (Cmd.ofWord w).op = some op →
    op ∈ [Op.nop, .cbCreate, .cbDestroy, .cbReset, .cbAddbyte, .cbAddbytes, .cbReadbyte, .cbNextbyte, .cbArebytes,
      .cbCount] → decode p .X w = decode p .E w) ∧
  (∀ p w op, opOf (Cmd.ofWord w).op = some op →
    op ∉ [Op.nop, .cbCreate, .cbDestroy, .cbReset, .cbAddbyte, .cbAddbytes, .cbReadbyte, .cbNextbyte, .cbArebytes,
      .cbCount] → decode p .X w = .error .priv) ∧
  (∀ p w e, decode p .E w = .error e → e = .illegalOp ∨ e = .reserved)

/-- Words written out from the spec's encoding decode to the instructions they stand for (95_test_vectors.md Part 0, 1.1;
30_encoding.md R105, R112, R113, R118, R119, R120). That the 48 bits of an ACSI block have byte 0 on top is the model's
reading, log entry 17. -/
def Obligations.SampleWordsDecode : Prop :=
  decodeTableWord 128 0 = some .nop ∧
  decodeTableWord 128 0x11100000000000070000000000000064 = some (.schedule 16 7 100) ∧
  decodeTableWord 128 0x23000000000000A10000000000000000 = some (.cbAddbyte 0 0xA1) ∧
  decodeTableWord 128 0x30030002000000000000000000000000 = some (.regRdDmaAddr 0) ∧
  decodeTableWord 128 0x31020001000000900000000000000000 = some (.regWrAcia1Tdr 0x90 0) ∧
  decodeTableWord 128 0x41000007000000020000000000000000 = some (.fddMount 0 7 false true) ∧
  decodeTableWord 8 17 = some (.cbExt 1) ∧
  decodeTableWord 48 0x680000640100 = some (.acsiRead 3 100 1 0)

/-! ### The step -/

/-- A step runs what it fetches: the decoded command at the head of a port, the callback the dispatcher chose, the command
block a device owes. What `step` adds around `exec` is the port in service. That a turn of the loop and an ACSI dispatch
are steps of their own is the model's choice, log entries 1 and 2. -/
def Obligations.StepRunsTheDecodedInstruction : Prop :=
  (∀ s w rest i, s.disp ≠ .scan → s.acsiPending = none → s.portE.queue = w :: rest → s.portX.queue = [] →
    decode s.par .E w = .ok i → step s = exec i { s with serving := .E }) ∧
  (∀ s w rest i, s.disp ≠ .scan → s.acsiPending = none → s.portE.queue = [] → s.portX.queue = w :: rest →
    decode s.par .X w = .ok i → step s = exec i { s with serving := .X }) ∧
  (∀ s k, s.disp ≠ .scan → s.acsiPending = some k → s.portX.queue = [] →
    step s = exec (decodeAcsi (acsiBlock k (s.acsi[k]).cmd)) { s with serving := .E }) ∧
  (∀ s c s', s.disp = .scan → s.portX.queue = [] → chooseDue { s with serving := .E } = some (c, s') →
    step s = exec (callbackOf s.par c) s')

/-- With work on both ports either port may move (20_memory.md R86), whatever port E's work is: a command or a refused word,
a turn of the dispatch loop or its end, a device's command to dispatch. The port is the one whose turn it is, with turns
left for it, else the other, for a free number of turns; before the first contest it is a free choice. So no port is passed
over for ever: on every run, a port that has work from some step on is served after it (R89, weak fairness). With no work
nothing changes (60_exceptions.md R371). How the choice is made, that the fairness is between ports whatever they wait for,
the turns of the loop and the dispatch as steps of their own, and the idle step are the model's, log entries 4, 25, 1, 2 and
3. -/
def Obligations.StepPicksEitherPort : Prop :=
  (∀ (s : State) (x : Word128) (rx : List Word128), s.portX.queue = x :: rx → hasWork s .E = true →
    let ran : Port → Word128 → State → Result := fun p w u =>
      match decode s.par p w with
      | .ok i => exec i u
      | .error c => .next (u.answer (respWord c.code 0 0 0 0))
    ∃ (p : Port) (n : Nat),
      let u := { s with serving := p, picks := { taken := s.picks.taken + 1, favour := some (p, n) } }
      (∀ q m, s.picks.favour = some (q, m + 1) → p = q ∧ n = m) ∧
      (∀ q, s.picks.favour = some (q, 0) → p ≠ q) ∧
      (p = .X → step s = ran .X x u) ∧
      (p = .E →
        (∀ w re, s.disp ≠ .scan → s.acsiPending = none → s.portE.queue = w :: re → step s = ran .E w u) ∧
        (∀ k, s.disp ≠ .scan → s.acsiPending = some k →
          step s = exec (decodeAcsi (acsiBlock k (s.acsi[k]).cmd)) u) ∧
        (∀ c v, s.disp = .scan → chooseDue u = some (c, v) → step s = exec (callbackOf s.par c) v) ∧
        (s.disp = .scan → (∀ c : CbId, c.val < s.par.ncb → due s s.advTarget c = false) →
          step s = .next (State.answer { u with disp := .idle } (respWord 0 1 0 0 0))))) ∧
  (∀ (run : Nat → State) (p : Port) (n : Nat),
    (∀ m, n ≤ m → step (run m) = .next (run (m + 1)) ∧ hasWork (run m) p = true) →
    ∃ m, n ≤ m ∧ (run (m + 1)).serving = p) ∧
  (∀ s, s.disp ≠ .scan → s.acsiPending = none → s.portE.queue = [] → s.portX.queue = [] → step s = .next s)

/-- A word that decoding refuses is answered with its error code, and nothing else changes: not `NOW`, not the trace
(30_encoding.md R109, 60_exceptions.md R350). On port X likewise. A port as a queue is the model's, log entry 3. -/
def Obligations.RefusedWordIsOnlyAnswered : Prop :=
  (∀ s w rest e, s.disp ≠ .scan → s.acsiPending = none → s.portE.queue = w :: rest → s.portX.queue = [] →
    decode s.par .E w = .error e →
    step s = .next { s with
      serving := .E
      portE := { queue := rest, replies := s.portE.replies ++ [respWord e.code 0 0 0 0] } }) ∧
  (∀ s w rest e, s.disp ≠ .scan → s.acsiPending = none → s.portE.queue = [] → s.portX.queue = w :: rest →
    decode s.par .X w = .error e →
    step s = .next { s with
      serving := .X
      portX := { queue := rest, replies := s.portX.replies ++ [respWord e.code 0 0 0 0] } })

/-- The machine never stops: every instruction, in every state, answers a next state (60_exceptions.md R350, R354; the
PEE takes no traps), and so does every step. In three cases that next state is the same state, which is the model's choice:
the idle step (log entry 3), a buffer command that waits for a held flag (log entry 12), a callback with no entry (log
entry 22). -/
def Obligations.NothingStops : Prop :=
  (∀ i s, ∃ t, exec i s = .next t) ∧ (∀ s, ∃ t, step s = .next t)

/-! ### Time -/

/-- The time rule of 40_agenda.md R131, for every time-carrying command that has passed the checks before it: a `now`
before `NOW` is refused with ERR_TIME_REGRESS and no state change; any other becomes `NOW`, also when the command fails
later, and the command's own effect reads the new `NOW`: it is the one the command has where `NOW` was that already. -/
def Obligations.TimeCarryingCommandsSetNow : Prop :=
  ∀ i s now, instrTime i = some now → passesChecks s.par i = true → (s.disp = .idle ∨ ∀ n, i ≠ .advance n) →
    (s.par.sdiff now s.now < 0 → exec i s = .next (s.answer (respWord 0x07 0 0 0 0))) ∧
    (0 ≤ s.par.sdiff now s.now →
      exec i s = exec i { s with now := now } ∧ ∃ t, exec i s = .next t ∧ t.now = now)

/-- `NOW` never goes back (10_state.md R22) and moves only with a time-carrying command: RESET apart, every instruction
leaves it at or after its value, and the others leave it alone. Under the half-range limit (70_reset_and_hazards.md R408)
a pending entry that stays comes nearer by exactly the cycles `NOW` moved; an entry that is new lies as far from `NOW` as
the delay of its SCHEDULE says, or one chip delay away (46_cross_family.md R330), or, for an entry that re-arms itself, one
chip delay from the entry that fired, without a wrap; and the limit holds again. A callback is taken to fire when it is due.
The limit as a predicate is the model's reading, log entry 24. -/
def Obligations.TimeOnlyMovesForward : Prop :=
  (∀ i s t, i ≠ .reset → exec i s = .next t → 0 ≤ s.par.sdiff t.now s.now) ∧
  (∀ i s t, i ≠ .reset → instrTime i = none → exec i s = .next t → t.now = s.now) ∧
  (∀ producer i s t, s.par.Ok → HalfRange s → Contract producer i s →
    (∀ (c : CbId) (e : AgEntry), i = callbackOf s.par c → s.ag[c] = some e → s.par.sdiff e.fireTime s.now ≤ 0) →
    exec i s = .next t →
    HalfRange t ∧
    ∀ (c : CbId) (e : AgEntry), t.ag[c] = some e →
      (s.ag[c] = some e ∧ s.par.sdiff e.fireTime t.now = s.par.sdiff e.fireTime s.now - s.par.sdiff t.now s.now) ∨
      (∃ d, i = .schedule (BitVec.ofNat 8 c.val) e.param d ∧ s.par.sdiff e.fireTime t.now = s.par.sdiff d 0) ∨
      (∃ n ∈ chipDelays i s, s.par.sdiff e.fireTime t.now = n) ∨
      (∃ n ∈ chipDelays i s, ∃ fired, s.ag[c] = some fired ∧
        s.par.sdiff e.fireTime t.now = s.par.sdiff fired.fireTime s.now + n))

/-- RESET (40_agenda.md R139) leaves the table of 10_state.md R57, every element of it. An element has its configured reset
value (70_reset_and_hazards.md R392), but what the source states: a buffer is inert, an ACIA has its flags clear and reads
ready to transmit, a device is in phase 7, the trace is empty. The configured values are by default those of the table, and
with them every status register reads as it says. That what is outside the PEE stays (memory, the disks' data, port X) is
the model's choice, log entry 11; so are the zeros of `ax_dir`, `ax_lba` and a drive's transfer state, log entry 20, and
which values the configuration holds, log entry 28. -/
def Obligations.ResetBootsCold : Prop :=
  (∀ s, ∃ t, exec .reset s = .next t ∧
    (let r := s.par.reset
     t.now = s.par.clockReset ∧ t.cfg = s.par.cfgReset ∧ (∀ c : CbId, t.ag[c] = r.entry) ∧ t.disp = r.disp ∧
     t.advTarget = s.par.clockReset ∧ t.fireCb = r.fireCb ∧ t.fireParam = r.fireParam ∧
     t.fireTime = s.par.clockReset ∧
     (∀ b : BufId, t.cb[b] = { cap := 0, store := [], rd := r.bufferRd, wr := r.bufferWr, mx := r.bufferMx }) ∧
     (∀ i : Fin 2,
       t.acia[i] =
         { cr := r.aciaCr, rdrf := false, tdre := true, tdr := r.aciaTdr, tdrs := r.aciaTdrs, rdr := r.aciaRdr,
           rdrs := r.aciaRdrs, irq := false, clockDivide := r.aciaClockDivide, txIrqEn := false, rxIrqEn := false,
           lineBusyTx := false, lineBusyRx := false, overrun := false, lastTxWrite := s.par.clockReset } ∧
       (t.acia[i]).sr = 0x02) ∧
     t.dma = r.dma ∧
     (∀ d : Fin 3,
       t.fdd[d] =
         { track := r.fddTrack, motor := r.fddMotor, reading := r.fddReading, writing := r.fddWriting,
           tNext := s.par.clockReset, tLast := s.par.clockReset, cpb := s.par.fddCpbReset, disk := r.fddDisk,
           singleSided := r.fddSingleSided, ghost := r.fddGhost, cond := r.fddCond, xfSector := r.fddXfSector,
           xfSize := r.fddXfSize, xfBuf := r.fddXfBuf }) ∧
     (∀ d : Fin 2, t.lastStep[d] = r.lastStep) ∧
     (∀ k : Dev,
       t.acsi[k] =
         { present := r.acsiPresent, image := r.acsiImage, sectors := r.acsiSectors, cmd := r.acsiCmd, phase := 7,
           status := s.par.acsiStOk, error := s.par.acsiENone, curLba := r.acsiCurLba }) ∧
     t.acsiDev = r.acsiDev ∧ t.ax = r.ax ∧ t.acsiPending = none ∧ t.pins = r.pins ∧ t.trace = []) ∧
    t.par = s.par ∧ t.mem = s.mem ∧ t.disks = s.disks ∧ t.picks = s.picks ∧
    (s.serving = .E → t.portX = s.portX ∧
      t.portE = { queue := s.portE.queue.tail, replies := s.portE.replies ++ [respWord 0 1 0 0 0] }) ∧
    (s.par.reset = .default →
      engineStatus t = 0 ∧ t.dma.status = 0x01 ∧ ∀ d : Fin 3, (t.fdd[d]).flags = 0x08)) ∧
  Params.default.reset = .default ∧
  ResetValues.default =
    { entry := none, disp := .idle, fireCb := 0, fireParam := 0, bufferRd := 0, bufferWr := 0, bufferMx := false,
      aciaCr := 0, aciaTdr := 0, aciaTdrs := 0, aciaRdr := 0, aciaRdrs := 0, aciaClockDivide := .by1,
      dma :=
        { mcr := 0, sct := 0, bct := 0, fifo := Vector.replicate 2 (Vector.replicate 16 0), idx := 0, sel := 0,
          drq := false, err := false, addr := 0 },
      fddTrack := 0, fddMotor := false, fddReading := false, fddWriting := false, fddDisk := none,
      fddSingleSided := false, fddGhost := false, fddCond := 0, fddXfSector := 0, fddXfSize := 0, fddXfBuf := [],
      lastStep := none, acsiPresent := false, acsiImage := none, acsiSectors := 0, acsiCmd := Vector.replicate 6 0,
      acsiCurLba := 0, acsiDev := 0, ax := { dir := .read, lba := 0, left := 0 },
      pins := { kbd := false, midi := false, disk := false } }

/-- NOP (40_agenda.md R138) only answers. ADVANCE (R133) sets the target and starts the loop; while an external callback is
out it is refused with ERR_BUSY. FIRE_ACK (R141, 60_exceptions.md R360) resumes the loop, nothing else changing, the target
among it; with no callback out, or another identity, it is ERR_NO_FIRE. That the loop's turns are steps of their own is the
model's choice, log entry 1. -/
def Obligations.NopAdvanceFireAck : Prop :=
  (∀ s, exec .nop s = .next (s.answer (respWord 0 1 0 0 0))) ∧
  (∀ s now, s.disp = .idle → 0 ≤ s.par.sdiff now s.now →
    exec (.advance now) s = .next { s with now := now, advTarget := now, disp := .scan }) ∧
  (∀ s now, s.disp ≠ .idle → exec (.advance now) s = .next (s.answer (respWord 0x06 0 0 0 0))) ∧
  (∀ s cb, s.par.ncbInt ≤ cb.toNat → cb.toNat < s.par.ncb → s.disp = .waitAck → s.fireCb = cb →
    exec (.fireAck cb) s = .next { s with disp := .scan }) ∧
  (∀ s cb, s.par.ncbInt ≤ cb.toNat → cb.toNat < s.par.ncb → (s.disp ≠ .waitAck ∨ cb ≠ s.fireCb) →
    exec (.fireAck cb) s = .next (s.answer (respWord 0x08 0 0 0 0))) ∧
  (∀ s cb, cb.toNat < s.par.ncbInt → cb.toNat < s.par.ncb →
    exec (.fireAck cb) s = .next (s.answer (respWord 0x03 0 0 0 0))) ∧
  (∀ s cb, s.par.ncb ≤ cb.toNat → exec (.fireAck cb) s = .next (s.answer (respWord 0x04 0 0 0 0)))

/-- SCHEDULE, CANCEL and AG_QUERY (40_agenda.md R136, R140, R142; 30_encoding.md R108): what they do on an identity they
may name, and their refusals, in every dispatcher state. -/
def Obligations.SlotCommands : Prop :=
  (∀ (s : State) (cb : BitVec 8) (c : CbId) (param : Param) (delay : Clock), c.val = cb.toNat → c.val < s.par.ncb →
    s.par.ncbInt ≤ c.val →
    exec (.schedule cb param delay) s =
      .next (State.answer { s with ag := s.ag.set c (some { fireTime := s.par.tadd s.now delay, param := param }) }
        (respWord 0 3 0 0 (s.par.tadd s.now delay)))) ∧
  (∀ (s : State) (cb : BitVec 8) (c : CbId), c.val = cb.toNat → c.val < s.par.ncb → s.par.ncbInt ≤ c.val →
    exec (.cancel cb) s =
      .next (State.answer { s with ag := s.ag.set c none }
        (respWord 0 (if (s.ag[c]).isSome then 3 else 1) 0 0 0))) ∧
  (∀ (s : State) (cb : BitVec 8) (c : CbId), c.val = cb.toNat → c.val < s.par.ncb →
    exec (.agQuery cb) s =
      match s.ag[c] with
      | some e => .next (s.answer (respWord 0 3 0 e.param e.fireTime))
      | none => .next (s.answer (respWord 0 1 0 0 0))) ∧
  (∀ s cb param delay, s.par.ncb ≤ cb.toNat →
    exec (.schedule cb param delay) s = .next (s.answer (respWord 0x04 0 0 0 0)) ∧
    exec (.cancel cb) s = .next (s.answer (respWord 0x04 0 0 0 0)) ∧
    exec (.agQuery cb) s = .next (s.answer (respWord 0x04 0 0 0 0))) ∧
  (∀ s cb param delay, cb.toNat < s.par.ncbInt → cb.toNat < s.par.ncb →
    exec (.schedule cb param delay) s = .next (s.answer (respWord 0x03 0 0 0 0)) ∧
    exec (.cancel cb) s = .next (s.answer (respWord 0x03 0 0 0 0)))

/-! ### The dispatcher -/

/-- Firing an external callback (40_agenda.md R133, 60_exceptions.md R359): the slot is cleared, the entry saved, the
dispatcher waits, the FIRE event and the FIRE response carry the entry. Firing a reserved identity (30_encoding.md R118)
removes its entry and does nothing else (log entry 22). -/
def Obligations.ExternalAndReservedCallbacks : Prop :=
  (∀ (s : State) (n c : CbId) (e : AgEntry), c.val = s.par.ncbInt + n.val → s.ag[c] = some e →
    exec (.cbExt n) s =
      .next (State.answer { s with
          ag := s.ag.set c none
          fireCb := BitVec.ofNat 8 c.val
          fireParam := e.param
          fireTime := e.fireTime
          disp := .waitAck
          trace := s.trace ++ [.fire (BitVec.ofNat 8 c.val) e.param e.fireTime] }
        (respWord 0 7 (BitVec.ofNat 8 c.val) e.param e.fireTime))) ∧
  (∀ (s : State) (c : CbId) (e : AgEntry), s.ag[c] = some e →
    (c.val = 9 → exec .cbReserved9 s = .next { s with ag := s.ag.set c none }) ∧
    (∀ n : Fin 2, c.val = 10 + n.val → exec (.cbReserved10 n) s = .next { s with ag := s.ag.set c none }) ∧
    (∀ n : Fin 244, c.val = 12 + n.val → exec (.cbReserved12 n) s = .next { s with ag := s.ag.set c none }))

/-- The choice of the next entry (40_agenda.md R132 to R134): whenever something is due, an entry is chosen; it is due and
none that is due fires earlier, by subtraction; nothing but the count of choices changes (log entry 5). With every pending
entry within the half-range limit of the target (70_reset_and_hazards.md R408; the predicate is log entry 24) it is the
earliest in time: no pending entry's distance from the target is smaller. -/
def Obligations.EarliestEntryIsChosen : Prop :=
  (∀ s, (∃ c : CbId, c.val < s.par.ncb ∧ due s s.advTarget c = true) → chooseDue s ≠ none) ∧
  (∀ s c s', chooseDue s = some (c, s') →
    c.val < s.par.ncb ∧
    (∃ e, s.ag[c] = some e ∧ s.par.sdiff e.fireTime s.advTarget ≤ 0 ∧
      ∀ (d : CbId) (f : AgEntry), d.val < s.par.ncb → s.ag[d] = some f → s.par.sdiff f.fireTime s.advTarget ≤ 0 →
        s.par.sdiff e.fireTime f.fireTime ≤ 0) ∧
    s' = { s with picks := s'.picks }) ∧
  (∀ s c s' e, HalfRangeOf s.advTarget s → chooseDue s = some (c, s') → s.ag[c] = some e →
    ∀ (d : CbId) (f : AgEntry), d.val < s.par.ncb → s.ag[d] = some f →
      s.par.sdiff e.fireTime s.advTarget ≤ s.par.sdiff f.fireTime s.advTarget)

/-- A running loop ends only when nothing is due at its target, and then `disp` is idle and the ADVANCE or FIRE_ACK is
answered with `FIRE = 0` (40_agenda.md R133, R147). That the ending turn is a step of its own, which takes the word at the
head of port E and answers it, is the model's choice, log entries 1 and 10. -/
def Obligations.LoopEndsWithNothingDue : Prop :=
  ∀ s t, s.disp = .scan → s.portX.queue = [] → step s = .next t → t.disp = .idle →
    (∀ c : CbId, c.val < t.par.ncb → due t t.advTarget c = false) ∧
    t = { s with
      disp := .idle
      serving := .E
      portE := { queue := s.portE.queue.tail, replies := s.portE.replies ++ [respWord 0 1 0 0 0] } }

/-! ### CircularBuffer -/

/-- CB_CREATE, CB_DESTROY and CB_RESET (41_circular_buffer.md R164 to R166) on a buffer whose flag is free: the buffer
after, in full, and the answer. The cursor values are the rules' own. -/
def Obligations.LifecycleCommandsComplete : Prop :=
  ∀ (s : State) (buf : BitVec 8) (b : BufId), b.val = buf.toNat → b.val < s.par.nbuf → (s.cb[b]).mx = false →
    (∀ size : BitVec 32, 2 ≤ size.toNat → size.toNat ≤ s.par.cbMaxcap →
      exec (.cbCreate buf size) s =
        .next (State.answer { s with
            cb := s.cb.set b
              { cap := size.toNat, store := List.replicate size.toNat none, rd := 0, wr := 1, mx := false } }
          (respWord 0 1 0 0 0))) ∧
    exec (.cbDestroy buf) s =
      .next (State.answer { s with cb := s.cb.set b { cap := 0, store := [], rd := 0, wr := 0, mx := false } }
        (respWord 0 1 0 0 0)) ∧
    exec (.cbReset buf) s =
      .next (State.answer { s with
          cb := if (s.cb[b]).cap = 0 then s.cb else s.cb.set b { s.cb[b] with rd := 0, wr := 1 } }
        (respWord 0 1 0 0 0))

/-- CB_ADDBYTE and CB_ADDBYTES (R167, R168) on a live buffer whose flag is free: the buffer after, in full, and the answer,
`OK = 0` exactly when the unread region is overtaken. -/
def Obligations.ProducerCommandsComplete : Prop :=
  ∀ (s : State) (buf : BitVec 8) (b : BufId) (c : CircBuf), b.val = buf.toNat → b.val < s.par.nbuf → s.cb[b] = c →
    c.mx = false → c.cap ≠ 0 →
    (∀ byte : Byte,
      exec (.cbAddbyte buf byte) s =
        .next (State.answer { s with
            cb := s.cb.set b { c with
              store := c.store.set c.wr (some byte)
              wr := (c.wr + 1) % c.cap
              rd := if c.wr = c.rd then (c.wr + 1) % c.cap else c.rd } }
          (respWord 0 (if c.wr = c.rd then 0 else 1) 0 0 0))) ∧
    (∀ (len : BitVec 16) (burst : BitVec 96), len.toNat ≤ s.par.cbBurstMax → len.toNat < c.cap →
      exec (.cbAddbytes buf len burst) s =
        .next (State.answer { s with
            cb := s.cb.set b { c with
              store := (List.range len.toNat).foldl
                (fun store j => store.set ((c.wr + j) % c.cap) (some (burst.extractLsb' (8 * j) 8))) c.store
              wr := (c.wr + len.toNat) % c.cap
              rd := if len.toNat > c.cap - 1 - (c.wr + c.cap - 1 - c.rd) % c.cap then (c.wr + len.toNat) % c.cap
                else c.rd } }
          (respWord 0 (if len.toNat > c.cap - 1 - (c.wr + c.cap - 1 - c.rd) % c.cap then 0 else 1) 0 0 0)))

/-- The refusals of the buffer commands and the wait: a buffer number not below `NBUF` is ERR_BAD_SEL; a size or a length
out of range is ERR_VALUE whatever the flag (R163, R164, R168); while the flag is held every command waits, changing nothing
(70_reset_and_hazards.md R403; that it stays at the head of its port is the model's choice, log entry 12); with the flag
free an inert buffer refuses with ERR_INERT (R161), and a burst as long as the capacity is ERR_VALUE (R168). -/
def Obligations.BuffersWaitOrRefuse : Prop :=
  ∀ (s : State) (buf byte : BitVec 8) (size : BitVec 32) (len : BitVec 16) (burst : BitVec 96),
    (s.par.nbuf ≤ buf.toNat →
      ∀ i ∈ [Instr.cbCreate buf size, .cbDestroy buf, .cbReset buf, .cbAddbyte buf byte, .cbAddbytes buf len burst,
        .cbReadbyte buf, .cbNextbyte buf, .cbArebytes buf, .cbCount buf],
        exec i s = .next (s.answer (respWord 0x04 0 0 0 0))) ∧
    (∀ b : BufId, b.val = buf.toNat → b.val < s.par.nbuf →
      (size.toNat < 2 ∨ s.par.cbMaxcap < size.toNat →
        exec (.cbCreate buf size) s = .next (s.answer (respWord 0x0a 0 0 0 0))) ∧
      (s.par.cbBurstMax < len.toNat → exec (.cbAddbytes buf len burst) s = .next (s.answer (respWord 0x0a 0 0 0 0))) ∧
      (2 ≤ size.toNat → size.toNat ≤ s.par.cbMaxcap → len.toNat ≤ s.par.cbBurstMax → (s.cb[b]).mx = true →
        ∀ i ∈ [Instr.cbCreate buf size, .cbDestroy buf, .cbReset buf, .cbAddbyte buf byte, .cbAddbytes buf len burst,
          .cbReadbyte buf, .cbNextbyte buf, .cbArebytes buf, .cbCount buf], exec i s = .next s) ∧
      (len.toNat ≤ s.par.cbBurstMax → (s.cb[b]).mx = false → (s.cb[b]).cap = 0 →
        ∀ i ∈ [Instr.cbAddbyte buf byte, .cbAddbytes buf len burst, .cbReadbyte buf, .cbNextbyte buf, .cbArebytes buf,
          .cbCount buf], exec i s = .next (s.answer (respWord 0x09 0 0 0 0))) ∧
      (len.toNat ≤ s.par.cbBurstMax → (s.cb[b]).mx = false → 0 < (s.cb[b]).cap → (s.cb[b]).cap ≤ len.toNat →
        exec (.cbAddbytes buf len burst) s = .next (s.answer (respWord 0x0a 0 0 0 0))))

/-- CB_ADDBYTE on the list of unread bytes (R167, 10_state.md R31(e), R32): the byte goes to the end; when `cap - 1` bytes
are held the oldest is lost and the answer is `OK = 0`. -/
def Obligations.AddByteOnContent : Prop :=
  ∀ (s : State) (buf byte : BitVec 8) (b : BufId), b.val = buf.toNat → b.val < s.par.nbuf → (s.cb[b]).Ok →
    (s.cb[b]).cap ≠ 0 →
    ∃ t, exec (.cbAddbyte buf byte) s = .next t ∧ (t.cb[b]).Ok ∧ (t.cb[b]).cap = (s.cb[b]).cap ∧
      (t.cb[b]).content =
        (if (s.cb[b]).content.length = (s.cb[b]).cap - 1 then (s.cb[b]).content.tail else (s.cb[b]).content)
          ++ [some byte] ∧
      (servedPort t).replies = (servedPort s).replies ++
        [respWord 0 (if (s.cb[b]).content.length = (s.cb[b]).cap - 1 then 0 else 1) 0 0 0]

/-- CB_ADDBYTES on the list of unread bytes (R168): the last `cap - 1` bytes of what was there and the burst, in order,
and `OK = 0` exactly when some are lost. -/
def Obligations.BurstOnContent : Prop :=
  ∀ (s : State) (buf : BitVec 8) (b : BufId) (len : BitVec 16) (burst : BitVec 96), b.val = buf.toNat →
    b.val < s.par.nbuf → (s.cb[b]).Ok → len.toNat ≤ s.par.cbBurstMax → len.toNat < (s.cb[b]).cap →
    ∃ t, exec (.cbAddbytes buf len burst) s = .next t ∧ (t.cb[b]).Ok ∧ (t.cb[b]).cap = (s.cb[b]).cap ∧
      (let all := (s.cb[b]).content ++ (List.range len.toNat).map fun j => some (burst.extractLsb' (8 * j) 8)
       (t.cb[b]).content = all.drop (all.length - ((s.cb[b]).cap - 1))) ∧
      (servedPort t).replies = (servedPort s).replies ++
        [respWord 0 (if (s.cb[b]).content.length + len.toNat > (s.cb[b]).cap - 1 then 0 else 1) 0 0 0]

/-- A burst is its bytes added one by one (R169): the same store and cursors, and its `OK` is the AND of theirs. -/
def Obligations.BurstEqualsSingleBytes : Prop :=
  ∀ (s : State) (buf : BitVec 8) (b : BufId) (len : BitVec 16) (burst : BitVec 96), b.val = buf.toNat →
    b.val < s.par.nbuf → (s.cb[b]).Ok → len.toNat ≤ s.par.cbBurstMax → len.toNat < (s.cb[b]).cap →
    ∃ t u, exec (.cbAddbytes buf len burst) s = .next t ∧
      runAll ((List.range len.toNat).map fun j => .cbAddbyte buf (burst.extractLsb' (8 * j) 8)) s = some u ∧
      t.cb = u.cb ∧
      ∃ answers, (servedPort u).replies = (servedPort s).replies ++ answers ∧ answers.length = len.toNat ∧
        (∀ w ∈ answers, w = respWord 0 0 0 0 0 ∨ w = respWord 0 1 0 0 0) ∧
        (servedPort t).replies = (servedPort s).replies ++
          [respWord 0 (if ∀ w ∈ answers, w = respWord 0 1 0 0 0 then 1 else 0) 0 0 0]

/-- The consumer commands on the list of unread bytes (R170 to R173): CB_COUNT is its length, never above `cap - 1`
(R174); CB_READBYTE answers its head and CB_NEXTBYTE drops it. -/
def Obligations.ConsumersOnContent : Prop :=
  ∀ (s : State) (buf : BitVec 8) (b : BufId), b.val = buf.toNat → b.val < s.par.nbuf → (s.cb[b]).Ok →
    (s.cb[b]).cap ≠ 0 →
    (s.cb[b]).content.length ≤ (s.cb[b]).cap - 1 ∧
    exec (.cbCount buf) s = .next (s.answer (respWord 0 3 0 (BitVec.ofNat 32 (s.cb[b]).content.length) 0)) ∧
    ((s.cb[b]).content = [] →
      ∀ i ∈ [Instr.cbReadbyte buf, .cbNextbyte buf, .cbArebytes buf], exec i s = .next (s.answer (respWord 0 0 0 0 0))) ∧
    (∀ (v : Byte) (q : List (Option Byte)), (s.cb[b]).content = some v :: q →
      exec (.cbReadbyte buf) s = .next (s.answer (respWord 0 3 0 (v.setWidth 32) 0)) ∧
      exec (.cbArebytes buf) s = .next (s.answer (respWord 0 1 0 1 0)) ∧
      exec (.cbNextbyte buf) s =
        .next (State.answer { s with cb := s.cb.set b { s.cb[b] with rd := ((s.cb[b]).rd + 1) % (s.cb[b]).cap } }
          (respWord 0 1 0 0 0)) ∧
      CircBuf.content { s.cb[b] with rd := ((s.cb[b]).rd + 1) % (s.cb[b]).cap } = q)

/-- The single-producer, single-consumer contract (41_circular_buffer.md R162; 70_reset_and_hazards.md R402): while it is
kept, no instruction of a buffer's producing side takes an unread byte out of it but by overflow, all it can do is add
bytes at the end; and none of the other side adds or overwrites one, all it can do is drop the oldest. RESET and the
lifecycle commands are apart. The contract as a predicate is the model's reading, log entry 24. -/
def Obligations.BufferContract : Prop :=
  ∀ (producer : BufId → Port) (i : Instr) (s t : State) (b : BufId), Contract producer i s → (s.cb[b]).Ok →
    i ≠ .reset → bufferUse i ≠ some (.lifecycle, BitVec.ofNat 8 b.val) → exec i s = .next t →
    (t.cb[b]).cap = (s.cb[b]).cap ∧
    (s.serving ≠ producer b →
      (t.cb[b]).store = (s.cb[b]).store ∧ (t.cb[b]).wr = (s.cb[b]).wr ∧
      ∃ n ≤ 1, (t.cb[b]).content = (s.cb[b]).content.drop n) ∧
    (s.serving = producer b →
      ∃ added : List Byte,
        let all := (s.cb[b]).content ++ added.map some
        (t.cb[b]).content = all.drop (all.length - ((s.cb[b]).cap - 1)))

/-! ### ACIA -/

/-- The CR write (42_acia.md R197, R198) of both instances: the control register, the divide, the two enables, the
interrupt flag by the formula of R193, the pin and its edge; and nothing else. With the divide value 3 the master reset
(R192) comes first: it clears the flags and the lines, cancels both completions and lowers the pin; then the rest of the
value is latched, so the transmit interrupt pattern raises the pin. The divide and the data registers stay. -/
def Obligations.AciaControlWrites : Prop :=
  ∀ (s : State) (i : Fin 2) (v : Byte) (now : Clock), 0 ≤ s.par.sdiff now s.now →
    let a := s.acia[i]
    let tx := v.extractLsb' 5 2 == 1
    let irq := (a.tdre && tx) || (v.getLsbD 7 && (a.rdrf || a.overrun))
    let op := if i = 0 then Instr.regWrAcia0Cr v now else .regWrAcia1Cr v now
    (v.extractLsb' 0 2 ≠ 3 →
      exec op s =
        .next (State.answer { s with
            now := now
            acia := s.acia.set i { a with
              cr := v
              clockDivide := if v.extractLsb' 0 2 = 0 then .by1 else if v.extractLsb' 0 2 = 1 then .by16 else .by64
              txIrqEn := tx
              rxIrqEn := v.getLsbD 7
              irq := irq }
            pins := s.pins.put (aciaLine i) irq
            trace := s.trace ++ pinEdge s (aciaLine i) irq }
          (respWord 0 1 0 0 0))) ∧
    (v.extractLsb' 0 2 = 3 →
      exec op s =
        .next (State.answer { s with
            now := now
            ag := (s.ag.set (aciaTxId i) none).set (aciaRxId i) none
            acia := s.acia.set i { a with
              cr := v
              rdrf := false
              tdre := true
              overrun := false
              txIrqEn := tx
              rxIrqEn := v.getLsbD 7
              lineBusyTx := false
              lineBusyRx := false
              irq := tx }
            pins := s.pins.put (aciaLine i) tx
            trace := s.trace ++ pinEdge s (aciaLine i) false ++ (if tx then [.irq (aciaLine i) true] else []) }
          (respWord 0 1 0 0 0)))

/-- The TDR write (R199, R200): an idle transmitter takes the byte at once, its completion one byte time from now, which is
`ACIA_FRAME_BITS * divide * ACIA_CLK_CYCLES` (R194, R195); a busy one leaves it waiting, over a byte that waited before.
The transmit completion (R206, R207): the byte in the shifter goes out; a waiting byte follows it at once, else the line is
free. -/
def Obligations.AciaTransmits : Prop :=
  (∀ (s : State) (i : Fin 2) (v : Byte) (now : Clock), 0 ≤ s.par.sdiff now s.now →
    let a := s.acia[i]
    let rx := a.cr.getLsbD 7 && (a.rdrf || a.overrun)
    (a.lineBusyTx = false →
      exec (if i = 0 then .regWrAcia0Tdr v now else .regWrAcia1Tdr v now) s =
        .next (State.answer { s with
            now := now
            ag := s.ag.set (aciaTxId i) (some
              { fireTime := s.par.tadd now
                    (s.par.cycles (s.par.aciaFrameBits * a.clockDivide.toNat * s.par.aciaClkCycles))
                param := BitVec.ofNat 32 i.val })
            acia := s.acia.set i { a with
              tdr := v
              tdrs := v
              tdre := true
              lineBusyTx := true
              lastTxWrite := now
              irq := a.txIrqEn || rx }
            pins := s.pins.put (aciaLine i) (a.txIrqEn || rx)
            trace := s.trace ++ pinEdge s (aciaLine i) (a.txIrqEn || rx) }
          (respWord 0 1 0 0 0))) ∧
    (a.lineBusyTx = true →
      exec (if i = 0 then .regWrAcia0Tdr v now else .regWrAcia1Tdr v now) s =
        .next (State.answer { s with
            now := now
            acia := s.acia.set i { a with tdr := v, tdre := false, lastTxWrite := now, irq := rx }
            pins := s.pins.put (aciaLine i) rx
            trace := s.trace ++ pinEdge s (aciaLine i) rx }
          (respWord 0 1 0 0 0)))) ∧
  (∀ (s : State) (i : Fin 2) (e : AgEntry), s.ag[aciaTxId i] = some e →
    let a := s.acia[i]
    let irq := a.txIrqEn || (a.cr.getLsbD 7 && (a.rdrf || a.overrun))
    (a.tdre = false →
      exec (if i = 0 then .cbAcia0Tx else .cbAcia1Tx) s =
        .next { s with
          ag := s.ag.set (aciaTxId i) (some
            { fireTime := s.par.tadd s.now
                  (s.par.cycles (s.par.aciaFrameBits * a.clockDivide.toNat * s.par.aciaClkCycles))
              param := BitVec.ofNat 32 i.val })
          acia := s.acia.set i { a with tdrs := a.tdr, tdre := true, lineBusyTx := true, irq := irq }
          pins := s.pins.put (aciaLine i) irq
          trace := s.trace ++ [.txout i a.tdrs] ++ pinEdge s (aciaLine i) irq }) ∧
    (a.tdre = true →
      exec (if i = 0 then .cbAcia0Tx else .cbAcia1Tx) s =
        .next { s with
          ag := s.ag.set (aciaTxId i) none
          acia := s.acia.set i { a with lineBusyTx := false, irq := irq }
          pins := s.pins.put (aciaLine i) irq
          trace := s.trace ++ [.txout i a.tdrs] ++ pinEdge s (aciaLine i) irq }))

/-- ACIA_RXBYTE (R208) takes a byte on an idle line, its completion one byte time from now, and is refused with ERR_BUSY,
`NOW` moved, on a busy one; an instance above 1 is ERR_BAD_SEL. The receive completion (R209) delivers the byte, or sets
`overrun` and keeps the unread one. -/
def Obligations.AciaReceives : Prop :=
  (∀ (s : State) (i : Fin 2) (inst byte : BitVec 8) (now : Clock), inst.toNat = i.val → 0 ≤ s.par.sdiff now s.now →
    ((s.acia[i]).lineBusyRx = false →
      exec (.aciaRxbyte inst byte now) s =
        .next (State.answer { s with
            now := now
            ag := s.ag.set (aciaRxId i) (some
              { fireTime := s.par.tadd now
                    (s.par.cycles (s.par.aciaFrameBits * (s.acia[i]).clockDivide.toNat * s.par.aciaClkCycles))
                param := BitVec.ofNat 32 i.val })
            acia := s.acia.set i { s.acia[i] with rdrs := byte, lineBusyRx := true } }
          (respWord 0 1 0 0 0))) ∧
    ((s.acia[i]).lineBusyRx = true →
      exec (.aciaRxbyte inst byte now) s = .next (State.answer { s with now := now } (respWord 0x06 0 0 0 0)))) ∧
  (∀ (s : State) (inst byte : BitVec 8) (now : Clock), 2 ≤ inst.toNat →
    exec (.aciaRxbyte inst byte now) s = .next (s.answer (respWord 0x04 0 0 0 0))) ∧
  (∀ (s : State) (i : Fin 2) (e : AgEntry), s.ag[aciaRxId i] = some e →
    let a := s.acia[i]
    let irq := (a.tdre && a.txIrqEn) || a.cr.getLsbD 7
    exec (if i = 0 then .cbAcia0Rx else .cbAcia1Rx) s =
      .next { s with
        ag := s.ag.set (aciaRxId i) none
        acia := s.acia.set i { a with
          lineBusyRx := false
          overrun := a.overrun || a.rdrf
          rdr := if a.rdrf then a.rdr else a.rdrs
          rdrf := true
          irq := irq }
        pins := s.pins.put (aciaLine i) irq
        trace := s.trace ++ pinEdge s (aciaLine i) irq })

/-- The reads of both ACIAs. The read of RDR (R203) returns it and clears `RDRF` and `overrun`, the interrupt following.
SR (R202, its bits 10_state.md R35) and the observation registers (R201; FLAGS by R37) change nothing but `NOW`. -/
def Obligations.AciaReads : Prop :=
  ∀ (s : State) (i : Fin 2) (now : Clock), 0 ≤ s.par.sdiff now s.now →
    let a := s.acia[i]
    let tx := a.tdre && a.txIrqEn
    exec (if i = 0 then .regRdAcia0Rdr now else .regRdAcia1Rdr now) s =
      .next (State.answer { s with
          now := now
          acia := s.acia.set i { a with rdrf := false, overrun := false, irq := tx }
          pins := s.pins.put (aciaLine i) tx
          trace := s.trace ++ pinEdge s (aciaLine i) tx }
        (respWord 0 3 0 (a.rdr.setWidth 32) 0)) ∧
    (∀ r ∈ ([
        (if i = 0 then .regRdAcia0Sr now else .regRdAcia1Sr now,
          (if a.rdrf then 0x01 else 0) + (if a.tdre then 0x02 else 0) + (if a.overrun then 0x20 else 0)
            + (if a.irq then 0x80 else 0)),
        (if i = 0 then .regRdAcia0Cr now else .regRdAcia1Cr now, a.cr.setWidth 32),
        (if i = 0 then .regRdAcia0Flags now else .regRdAcia1Flags now,
          (if a.lineBusyTx then 0x01 else 0) + (if a.lineBusyRx then 0x02 else 0) + (if a.txIrqEn then 0x04 else 0)
            + (if a.rxIrqEn then 0x08 else 0) + (if a.overrun then 0x10 else 0) + (if a.irq then 0x20 else 0)
            + BitVec.ofNat 32 (256 * a.clockDivide.toNat)),
        (if i = 0 then .regRdAcia0Tdrs now else .regRdAcia1Tdrs now, a.tdrs.setWidth 32),
        (if i = 0 then .regRdAcia0Rdrs now else .regRdAcia1Rdrs now, a.rdrs.setWidth 32)] : List (Instr × BitVec 32)),
      exec r.1 s = .next (State.answer { s with now := now } (respWord 0 3 0 r.2 0))) ∧
    exec (if i = 0 then .regRdAcia0LastTxWrite now else .regRdAcia1LastTxWrite now) s =
      .next (State.answer { s with now := now } (respWord 0 3 0 0 a.lastTxWrite))

/-- The instances share nothing (R191): no instruction of one, in any state, changes the other's registers, Agenda slots or
pin; and none reads them: with those of the other replaced by any, it does the same and leaves the replacements alone. -/
def Obligations.AciaInstancesShareNothing : Prop :=
  ∀ (s t : State) (i j : Fin 2) (v sel : Byte) (reg : BitVec 16) (value : BitVec 32) (now : Clock), i ≠ j →
    sel.toNat = i.val →
    ∀ op ∈ [Instr.aciaRxbyte sel v now, .regRd (sel + 1) reg now, .regWr (sel + 1) reg value now] ++
      (if i = 0 then
        [Instr.regWrAcia0Cr v now, .regWrAcia0Tdr v now, .regRdAcia0Rdr now, .regRdAcia0Sr now, .regRdAcia0Cr now,
          .regRdAcia0Flags now, .regRdAcia0Tdrs now, .regRdAcia0Rdrs now, .regRdAcia0LastTxWrite now, .cbAcia0Tx,
          .cbAcia0Rx]
      else
        [Instr.regWrAcia1Cr v now, .regWrAcia1Tdr v now, .regRdAcia1Rdr now, .regRdAcia1Sr now, .regRdAcia1Cr now,
          .regRdAcia1Flags now, .regRdAcia1Tdrs now, .regRdAcia1Rdrs now, .regRdAcia1LastTxWrite now, .cbAcia1Tx,
          .cbAcia1Rx]),
      exec op s = .next t →
        (t.acia[j] = s.acia[j] ∧ t.ag[aciaTxId j] = s.ag[aciaTxId j] ∧ t.ag[aciaRxId j] = s.ag[aciaRxId j] ∧
          t.pins.level (aciaLine j) = s.pins.level (aciaLine j) ∧ t.pins.disk = s.pins.disk) ∧
        (∀ (a : Acia) (tx rx : Option AgEntry) (pin : Bool),
          let other : State → State := fun u => { u with
            acia := u.acia.set j a
            ag := (u.ag.set (aciaTxId j) tx).set (aciaRxId j) rx
            pins := u.pins.put (aciaLine j) pin }
          exec op (other s) = .next (other t))

/-- The ACIA invariant (10_state.md R36) holds after reset and, the parameters being legal, every step keeps it: the
interrupt flag of each instance is `(TDRE and tx_irq_en) or ((RDRF or overrun) and rx_irq_en)`, its pin has that level, and
the two enables are what CR says. RESET needs the parameters: a configured reset value could break it (log entry 28). -/
def Obligations.AciaInvariant : Prop :=
  let ok := fun s : State => ∀ i : Fin 2, AciaOk s i ∧
    (s.acia[i]).irq = (((s.acia[i]).tdre && (s.acia[i]).txIrqEn) ||
      (((s.acia[i]).rdrf || (s.acia[i]).overrun) && (s.acia[i]).rxIrqEn))
  ok .reset ∧ ∀ s t, s.par.Ok → ok s → step s = .next t → ok t

/-! ### DMA -/

/-- The register writes of the DMA (43_dma.md R232 to R235). MCR: a change of bit 8 clears the counters and the latches,
any other write stores the value alone; the address and the FIFO bytes stay in both. SCT and ADDR take a value of their
width, `DMA_SCT_W` and `DMA_ADDR_W` bits. -/
def Obligations.DmaRegisterWrites : Prop :=
  ∀ (s : State) (now : Clock), 0 ≤ s.par.sdiff now s.now →
    (∀ v : BitVec 16,
      exec (.regWrDmaMcr v now) s =
        .next (State.answer { s with
            now := now
            dma :=
              if v.getLsbD 8 = s.dma.mcr.getLsbD 8 then { s.dma with mcr := v }
              else { s.dma with mcr := v, sct := 0, bct := 0, idx := 0, sel := 0, drq := false, err := false } }
          (respWord 0 1 0 0 0))) ∧
    (∀ n : BitVec 32, n.toNat < 2 ^ s.par.dmaSctW →
      exec (.regWrDmaSct n now) s =
        .next (State.answer { s with now := now, dma := { s.dma with sct := n } } (respWord 0 1 0 0 0))) ∧
    (∀ a : Addr, a.toNat < 2 ^ s.par.dmaAddrW →
      exec (.regWrDmaAddr a now) s =
        .next (State.answer { s with now := now, dma := { s.dma with addr := a } } (respWord 0 1 0 0 0)))

/-- A `Drq` that moves nothing (R241, R242). With the counter at zero neither direction moves a byte: only `drq` is set.
Against the direction the call is refused, with `drq` and `err` set. An accepted call leaves `drq` 0 and takes one byte:
into the FIFO at the index (R237, R238), or from it (R240). -/
def Obligations.DrqIsRefusedOrMovesOneByte : Prop :=
  ∀ (s : State) (b : Byte),
    (s.dma.mcr.getLsbD 8 = true →
      drqIn b s = { s with dma := { s.dma with drq := true, err := true } } ∧
      (s.dma.sct = 0 → drqOut s = (none, { s with dma := { s.dma with drq := true } })) ∧
      (s.dma.sct ≠ 0 → s.dma.idx ≠ 0 → s.dma.idx ≠ 15 →
        drqOut s =
          (some ((s.dma.fifo[s.dma.sel])[s.dma.idx]),
            { s with dma := { s.dma with drq := false, idx := s.dma.idx + 1 } }))) ∧
    (s.dma.mcr.getLsbD 8 = false →
      drqOut s = (none, { s with dma := { s.dma with drq := true, err := true } }) ∧
      (s.dma.sct = 0 → drqIn b s = { s with dma := { s.dma with drq := true } }) ∧
      (s.dma.sct ≠ 0 → s.dma.idx ≠ 15 →
        drqIn b s = { s with dma := { s.dma with
          drq := false
          idx := s.dma.idx + 1
          fifo := s.dma.fifo.set s.dma.sel ((s.dma.fifo[s.dma.sel]).set s.dma.idx b) } }))

/-- Sixteen bytes given to the DMA in the read direction, from an empty half, reach memory (R237 to R239): byte `k` at
`addr + k`, modulo `2^DMA_ADDR_W`, every other byte as before, and the trace has the sixteen MEMW events in that order
(20_memory.md R74); the address moves by 16, the half flips, and 16 bytes are counted, a sector being `DMA_SECTOR_BYTES` of
them. -/
def Obligations.HalfReachesMemory : Prop :=
  ∀ (s : State) (bytes : Vector Byte 16), s.par.Ok → MemoryOk s → s.dma.mcr.getLsbD 8 = false → s.dma.sct ≠ 0 →
    s.dma.idx = 0 →
    let t := drqInAll bytes.toList s
    (∀ k : Fin 16, Memory.read t.mem (s.par.addrAt s.dma.addr k.val) = bytes[k]) ∧
    (∀ a : Addr, (∀ k : Fin 16, a ≠ s.par.addrAt s.dma.addr k.val) →
      Memory.read t.mem a = Memory.read s.mem a) ∧
    t.trace = s.trace ++ (List.finRange 16).map (fun k => .memw (s.par.addrAt s.dma.addr k.val) bytes[k]) ∧
    t.dma =
      { s.dma with
        fifo := s.dma.fifo.set s.dma.sel bytes
        addr := s.par.addrAt s.dma.addr 16
        sel := 1 - s.dma.sel
        drq := false
        bct := if s.dma.bct + 16 = s.par.dmaSectorBytes then 0 else s.dma.bct + 16
        sct := if s.dma.bct + 16 = s.par.dmaSectorBytes then s.dma.sct - 1 else s.dma.sct } ∧
    t = { s with mem := t.mem, dma := t.dma, trace := t.trace }

/-- Sixteen bytes taken from the DMA in the write direction, from an empty half, are the sixteen of memory at `addr` and
up (R239, R240), and the trace has the sixteen MEMR events (20_memory.md R74); memory stays, the address moves by 16, the
half flips, and 16 bytes are counted. -/
def Obligations.HalfComesFromMemory : Prop :=
  ∀ (s : State), s.dma.mcr.getLsbD 8 = true → s.dma.sct ≠ 0 → s.dma.idx = 0 →
    let t := (drqOutAll 16 s).2
    (drqOutAll 16 s).1 = (List.range 16).map (fun k => some (Memory.read s.mem (s.par.addrAt s.dma.addr k))) ∧
    t.trace = s.trace ++ (List.range 16).map (fun k =>
      .memr (s.par.addrAt s.dma.addr k) (Memory.read s.mem (s.par.addrAt s.dma.addr k))) ∧
    t.dma =
      { s.dma with
        fifo := s.dma.fifo.set s.dma.sel (Memory.half s.par s.mem s.dma.addr)
        addr := s.par.addrAt s.dma.addr 16
        sel := 1 - s.dma.sel
        drq := false
        bct := if s.dma.bct + 16 = s.par.dmaSectorBytes then 0 else s.dma.bct + 16
        sct := if s.dma.bct + 16 = s.par.dmaSectorBytes then s.dma.sct - 1 else s.dma.sct } ∧
    t = { s with dma := t.dma, trace := t.trace }

/-- Memory keeps its canonical form in every step (20_memory.md R73, R74). The form, and the zero an unlisted byte reads
as, are the model's choice, log entry 8. -/
def Obligations.MemoryStaysCanonical : Prop := ∀ s t, MemoryOk s → step s = .next t → MemoryOk t

/-! ### Floppy -/

/-- FDD_MOUNT and FDD_UNMOUNT (44_floppy.md R262, R263) on all three slots: the slot after, in full; unmounting an empty
slot is accepted and changes nothing, an empty slot having both flags clear (the invariants `DriveOk` and `InspectionOk`);
ERR_BUSY on a drive in a transfer; ERR_BAD_SEL above slot 2. -/
def Obligations.MountCommandsComplete : Prop :=
  ∀ (s : State) (slot : BitVec 8) (h : Handle) (ss ghost : Bool),
    (∀ d : Fin 3, d.val = slot.toNat →
      let f := s.fdd[d]
      ((d.val = 2 ∨ (f.reading = false ∧ f.writing = false)) →
        exec (.fddMount slot h ss ghost) s =
          .next (State.answer { s with
              fdd := s.fdd.set d { f with
                disk := some h, singleSided := ss, ghost := ghost, cond := if d.val < 2 then 0 else f.cond } }
            (respWord 0 1 0 0 0)) ∧
        exec (.fddUnmount slot) s =
          .next (State.answer { s with fdd := s.fdd.set d { f with disk := none, singleSided := false, ghost := false } }
            (respWord 0 1 0 0 0)) ∧
        (f.disk = none → f.singleSided = false → f.ghost = false →
          exec (.fddUnmount slot) s = .next (s.answer (respWord 0 1 0 0 0)))) ∧
      (d.val < 2 → (f.reading = true ∨ f.writing = true) →
        exec (.fddMount slot h ss ghost) s = .next (s.answer (respWord 0x06 0 0 0 0)) ∧
        exec (.fddUnmount slot) s = .next (s.answer (respWord 0x06 0 0 0 0)))) ∧
    (3 ≤ slot.toNat →
      exec (.fddMount slot h ss ghost) s = .next (s.answer (respWord 0x04 0 0 0 0)) ∧
      exec (.fddUnmount slot) s = .next (s.answer (respWord 0x04 0 0 0 0)))

/-- FDD_MOTOR (R266): on from off makes this moment an index position and schedules the first pulse one rotation
(`cpb * FDD_BYTES_PER_TRACK` cycles, R261) later; off from on cancels the pulses, unless a transfer is in flight; the state
it has changes nothing but `NOW`; slot 2 has no motor. The index pulse (R268) re-arms itself one rotation after its own fire
time, whatever `NOW` is, and emits `INDEX(d)`. FDD_STEP (R271) moves the head by one, clamped to tracks 0 to
`FDD_MAX_TRACK`, answers the track, and is noted for the settle monitor (10_state.md R59); a drive in a transfer refuses
it. -/
def Obligations.MotorPulsesAndSteps : Prop :=
  (∀ (s : State) (drive : BitVec 8) (on : Bool) (now : Clock),
    (∀ d : Fin 2, d.val = drive.toNat → 0 ≤ s.par.sdiff now s.now →
      let f := s.fdd[driveSlot d]
      let next := s.par.tadd now (s.par.cycles (f.cpb.toNat * s.par.fddBytesPerTrack))
      (on = f.motor → exec (.fddMotor drive on now) s = .next (State.answer { s with now := now } (respWord 0 1 0 0 0))) ∧
      (on = true → f.motor = false →
        exec (.fddMotor drive on now) s =
          .next (State.answer { s with
              now := now
              ag := s.ag.set (fddIndexId d) (some { fireTime := next, param := BitVec.ofNat 32 d.val })
              fdd := s.fdd.set (driveSlot d) { f with motor := true, tLast := now, tNext := next } }
            (respWord 0 1 0 0 0))) ∧
      (on = false → f.motor = true → f.reading = false → f.writing = false →
        exec (.fddMotor drive on now) s =
          .next (State.answer { s with
              now := now
              ag := s.ag.set (fddIndexId d) none
              fdd := s.fdd.set (driveSlot d) { f with motor := false } }
            (respWord 0 1 0 0 0))) ∧
      (on = false → f.motor = true → (f.reading = true ∨ f.writing = true) →
        exec (.fddMotor drive on now) s = .next (State.answer { s with now := now } (respWord 0x06 0 0 0 0)))) ∧
    (2 ≤ drive.toNat → exec (.fddMotor drive on now) s = .next (s.answer (respWord 0x04 0 0 0 0)))) ∧
  (∀ (s : State) (d : Fin 2) (e : AgEntry), s.ag[fddIndexId d] = some e →
    let f := s.fdd[driveSlot d]
    let next := s.par.tadd e.fireTime (s.par.cycles (f.cpb.toNat * s.par.fddBytesPerTrack))
    exec (if d = 0 then .cbFdd0Index else .cbFdd1Index) s =
      .next { s with
        ag := s.ag.set (fddIndexId d) (some { fireTime := next, param := BitVec.ofNat 32 d.val })
        fdd := s.fdd.set (driveSlot d) { f with tLast := e.fireTime, tNext := next }
        trace := s.trace ++ [.index d] }) ∧
  (∀ (s : State) (drive : BitVec 8) (dir : Bool) (now : Clock),
    (∀ d : Fin 2, d.val = drive.toNat → 0 ≤ s.par.sdiff now s.now →
      let f := s.fdd[driveSlot d]
      let track : BitVec 8 :=
        if dir then (if f.track.toNat < s.par.fddMaxTrack.toNat then f.track + 1 else s.par.fddMaxTrack)
        else (if f.track = 0 then 0 else f.track - 1)
      (f.reading = false → f.writing = false →
        exec (.fddStep drive dir now) s =
          .next (State.answer { s with
              now := now
              fdd := s.fdd.set (driveSlot d) { f with track := track }
              lastStep := s.lastStep.set d (some now) }
            (respWord 0 3 0 (track.setWidth 32) 0))) ∧
      (f.reading = true ∨ f.writing = true →
        exec (.fddStep drive dir now) s = .next (State.answer { s with now := now } (respWord 0x06 0 0 0 0)))) ∧
    (2 ≤ drive.toNat → exec (.fddStep drive dir now) s = .next (s.answer (respWord 0x04 0 0 0 0))))

/-- The refusals of FDD_READ and FDD_WRITE, in their order (R273, R274, R264): no disk, a transfer in flight, motor off,
the missing side, no sector under the head. `NOW` is updated, `cond` as the rule says, nothing else but the oracle's
event. What the oracle answers is the model's data, log entry 9. -/
def Obligations.FloppyTransferRefusals : Prop :=
  ∀ (s : State) (drive : BitVec 8) (side : Bool) (now : Clock),
    ∀ op ∈ [Instr.fddRead drive side now, .fddWrite drive side now],
      (2 ≤ drive.toNat → exec op s = .next (s.answer (respWord 0x04 0 0 0 0))) ∧
      (∀ d : Fin 2, d.val = drive.toNat → 0 ≤ s.par.sdiff now s.now →
        let f := s.fdd[driveSlot d]
        (f.disk = none →
          exec op s =
            .next (State.answer { s with now := now, fdd := s.fdd.set (driveSlot d) { f with cond := 1 } }
              (respWord 0x0b 0 0 0 0))) ∧
        (∀ h, f.disk = some h →
          (f.busy = true → exec op s = .next (State.answer { s with now := now } (respWord 0x06 0 0 0 0))) ∧
          (f.busy = false → f.motor = false →
            exec op s = .next (State.answer { s with now := now } (respWord 0x0d 0 0 0 0))) ∧
          (f.busy = false → f.motor = true → f.singleSided = true → side = true →
            exec op s =
              .next (State.answer { s with now := now, fdd := s.fdd.set (driveSlot d) { f with cond := 2 } }
                (respWord 0x0c 0 0 0 0))) ∧
          (f.busy = false → f.motor = true → (f.singleSided = false ∨ side = false) →
            sectorAt s.disks.layout h f.track side (f.bytePosition s.par now) = none →
            exec op s =
              .next (State.answer { s with
                  now := now
                  fdd := s.fdd.set (driveSlot d) { f with cond := 2 }
                  trace := s.trace ++ [.imgSectorAt h f.track side (f.bytePosition s.par now) none] }
                (respWord 0x0c 0 0 0 0)))))

/-- FDD_READ and FDD_WRITE accepted (R273, R274, R279). A read takes the sector's bytes now, from the overlay if the disk
has one that holds the sector, else from the image; a failing call is ERR_IO with `cond` 3 and the DMA's error latch. The
completion is `size * cpb` cycles from now; the answer is the sector number and that time. -/
def Obligations.FloppyTransferStarts : Prop :=
  ∀ (s : State) (drive : BitVec 8) (side : Bool) (now : Clock) (d : Fin 2) (h : Handle) (n : Sector) (size : Nat),
    d.val = drive.toNat → 0 ≤ s.par.sdiff now s.now →
    let f := s.fdd[driveSlot d]
    f.disk = some h → f.busy = false → f.motor = true → (f.singleSided = false ∨ side = false) →
    sectorAt s.disks.layout h f.track side (f.bytePosition s.par now) = some (n, size) →
    let done := s.par.tadd now (s.par.cycles (size * f.cpb.toNat))
    let entry : AgEntry := { fireTime := done, param := BitVec.ofNat 32 d.val }
    let asked := s.trace ++ [.imgSectorAt h f.track side (f.bytePosition s.par now) (some (n, size))]
    let has := f.ghost && (storeFind s.disks.ghost (sectorKey h n)).isSome
    let data := fitBytes size ((storeFind (if has then s.disks.ghost else s.disks.image) (sectorKey h n)).getD [])
    let call := fun r => if has then Event.ghostRead h n r else .imgRead h n r
    let fetched := asked ++ (if f.ghost then [.ghostHas h n has] else [])
    let disks := { s.disks with ioFail := s.disks.ioFail.tail }
    exec (.fddWrite drive side now) s =
      .next (State.answer { s with
          now := now
          ag := s.ag.set (fddXferId d) (some entry)
          fdd := s.fdd.set (driveSlot d) { f with writing := true, cond := 0, xfSector := n, xfSize := size }
          trace := asked }
        (respWord 0 3 0 n done)) ∧
    (s.disks.ioFail.head? ≠ some true →
      exec (.fddRead drive side now) s =
        .next (State.answer { s with
            now := now
            ag := s.ag.set (fddXferId d) (some entry)
            fdd := s.fdd.set (driveSlot d)
              { f with reading := true, cond := 0, xfSector := n, xfSize := size, xfBuf := data }
            disks := disks
            trace := fetched ++ [call (some data)] }
          (respWord 0 3 0 n done))) ∧
    (s.disks.ioFail.head? = some true →
      exec (.fddRead drive side now) s =
        .next (State.answer { s with
            now := now
            fdd := s.fdd.set (driveSlot d) { f with cond := 3 }
            dma := { s.dma with err := true }
            disks := disks
            trace := fetched ++ [call none] }
          (respWord 0x0e 0 0 0 0)))

/-- The end of a floppy transfer (R275, R279): a read hands its bytes to the DMA one by one; a write takes them from the
DMA and gives them to the overlay or the image, unless one is missing; then the drive is free and `IRQ_DISK` is up. Whether
the oracle's call fails, that a failed one leaves image and overlay as they were, and that the overlay is kept by image
handle, are the model's data, log entry 9. -/
def Obligations.FloppyTransferEnds : Prop :=
  ∀ (s : State) (d : Fin 2) (e : AgEntry), s.ag[fddXferId d] = some e →
    let f := s.fdd[driveSlot d]
    let op := if d = 0 then Instr.cbFdd0Xfer else .cbFdd1Xfer
    let base := { s with ag := s.ag.set (fddXferId d) none }
    let finish : State → Fdd → Result := fun u g => .next { u with
      fdd := s.fdd.set (driveSlot d) g
      pins := { s.pins with disk := true }
      trace := u.trace ++ pinEdge s .disk true }
    (f.reading = true → exec op s = finish (drqInAll f.xfBuf base) { f with reading := false }) ∧
    (f.reading = false →
      let got := drqOutAll f.xfSize base
      (none ∈ got.1 → exec op s = finish got.2 { f with writing := false, cond := 3 }) ∧
      (∀ (bytes : List Byte) (h : Handle), got.1 = bytes.map some → f.disk = some h →
        let call := fun ok => if f.ghost then Event.ghostWrite h f.xfSector bytes ok else .imgWrite h f.xfSector bytes ok
        let left := { got.2.disks with ioFail := s.disks.ioFail.tail }
        (s.disks.ioFail.head? = some true →
          exec op s =
            finish { got.2 with
                dma := { got.2.dma with err := true }, disks := left, trace := got.2.trace ++ [call false] }
              { f with writing := false, cond := 3 }) ∧
        (s.disks.ioFail.head? ≠ some true →
          exec op s =
            finish { got.2 with
                disks :=
                  if f.ghost then { left with ghost := storePut left.ghost (sectorKey h f.xfSector) bytes }
                  else { left with image := storePut left.image (sectorKey h f.xfSector) bytes }
                trace := got.2.trace ++ [call true] }
              { f with writing := false })))

/-- A sector read from a floppy reaches memory (R275; 43_dma.md R237 to R239): when the transfer completes with the DMA set
up and an address space that holds them, the 512 bytes of the sector stand at the address and up, every other byte of memory
is as before, one sector is counted (`DMA_SECTOR_BYTES` at its default) and the interrupt is up. -/
def Obligations.FloppySectorReachesMemory : Prop :=
  ∀ (s : State) (d : Fin 2) (e : AgEntry), s.ag[fddXferId d] = some e → s.par.Ok →
    9 ≤ s.par.dmaAddrW → MemoryOk s → s.par.dmaSectorBytes = 512 → (s.fdd[driveSlot d]).reading = true →
    (s.fdd[driveSlot d]).xfBuf.length = 512 →
    s.dma.mcr.getLsbD 8 = false → s.dma.sct ≠ 0 → s.dma.idx = 0 → s.dma.bct = 0 →
    ∃ t, exec (if d = 0 then .cbFdd0Xfer else .cbFdd1Xfer) s = .next t ∧
      (∀ k : Fin 512, some (Memory.read t.mem (s.par.addrAt s.dma.addr k.val)) =
        (s.fdd[driveSlot d]).xfBuf[k.val]?) ∧
      (∀ a : Addr, (∀ k : Fin 512, a ≠ s.par.addrAt s.dma.addr k.val) →
        Memory.read t.mem a = Memory.read s.mem a) ∧
      t.dma.sct = s.dma.sct - 1 ∧ t.dma.bct = 0 ∧ t.dma.idx = 0 ∧ t.dma.addr = s.par.addrAt s.dma.addr 512 ∧
      t.dma.sel = s.dma.sel ∧ t.dma.drq = false ∧ t.dma.err = s.dma.err ∧
      (t.fdd[driveSlot d]).reading = false ∧ t.ag[fddXferId d] = none ∧ t.pins.disk = true

/-- FDD_CONV (R278), a result of more than 32 bits being ERR_VALUE as a function above 2 is; the read of BYTEPOS (R276) and
the write of CPB (R280). The values are stated where every divisor is nonzero, as 46_cross_family.md R330 says they are:
under legal parameters, with `cpb` not 0 (R280; `DriveOk` keeps it so); elsewhere the quotient is free (log entry 27). A byte
position is stated for a `t_last` at or before now; with one after it the value is free (log entry 14). -/
def Obligations.ConversionsAndPosition : Prop :=
  (∀ (s : State) (fn : BitVec 16) (x : BitVec 32),
    let hpr := s.par.hblPerSec * 60 / s.par.fddRpm
    let value :=
      if fn = 0 then hpr
      else if fn = 1 then x.toNat * hpr / s.par.fddBytesPerTrack
      else x.toNat * s.par.fddBytesPerTrack / hpr
    (s.par.Ok → fn.toNat ≤ 2 →
      exec (.fddConv fn x) s =
        if value < 2 ^ 32 then .next (s.answer (respWord 0 3 0 (BitVec.ofNat 32 value) 0))
        else .next (s.answer (respWord 0x0a 0 0 0 0))) ∧
    (2 < fn.toNat → exec (.fddConv fn x) s = .next (s.answer (respWord 0x0a 0 0 0 0)))) ∧
  (∀ (s : State) (d : Fin 2) (now : Clock), 0 ≤ s.par.sdiff now s.now →
    let f := s.fdd[driveSlot d]
    (f.motor = false →
      exec (.regRdFddBytepos d now) s = .next (State.answer { s with now := now } (respWord 0 1 0 0 0))) ∧
    (f.motor = true → s.par.Ok → f.cpb ≠ 0 → 0 ≤ s.par.sdiff now f.tLast →
      exec (.regRdFddBytepos d now) s =
        .next (State.answer { s with now := now }
          (respWord 0 3 0 (BitVec.ofNat 32 ((s.par.sdiff now f.tLast).toNat / f.cpb.toNat % s.par.fddBytesPerTrack)) 0))) ∧
    (∀ v : BitVec 32,
      (v = 0 → exec (.regWrFddCpb d v now) s = .next (State.answer { s with now := now } (respWord 0x0a 0 0 0 0))) ∧
      (v ≠ 0 → f.motor = true →
        exec (.regWrFddCpb d v now) s = .next (State.answer { s with now := now } (respWord 0x06 0 0 0 0))) ∧
      (v ≠ 0 → f.motor = false →
        exec (.regWrFddCpb d v now) s =
          .next (State.answer { s with now := now, fdd := s.fdd.set (driveSlot d) { f with cpb := v } }
            (respWord 0 1 0 0 0)))))

/-- Every step keeps the drives' invariants (10_state.md R43, R45, R46; 44_floppy.md R262, R263, R266, R280) and the
inspection slot's (10_state.md R47), the parameters being legal (log entries 6 and 28). -/
def Obligations.DriveInvariant : Prop :=
  (∀ s t, s.par.Ok → (∀ d : Fin 2, DriveOk s d) → step s = .next t → ∀ d : Fin 2, DriveOk t d) ∧
  (∀ s t, s.par.Ok → InspectionOk s → step s = .next t → InspectionOk t)

/-- The contracts of the drives (70_reset_and_hazards.md). R401: under legal parameters, which keep the host's identities
from the chips' (log entry 6), a step inside the contract keeps a floppy transfer and an ACSI block transfer from being in
flight together, and while a drive is in its transfer no instruction but a transfer
completion, a write of a DMA register or RESET moves a byte through the DMA: its counters, address and FIFO stay, and
memory with them. R405: between a step of the head and the drive's next read or write that the clock accepts the settle
time passes, whatever ran between. The contract as a predicate is the model's reading, log entries 21 and 24. -/
def Obligations.DiskContract : Prop :=
  (∀ producer s t, s.par.Ok → AllowedStep producer s → OneDiskUser s → step s = .next t → OneDiskUser t) ∧
  (∀ (producer : BufId → Port) (i : Instr) (s t : State) (d : Fin 2), Contract producer i s → OneDiskUser s →
    (s.fdd[driveSlot d]).busy = true → i ∉ [Instr.reset, .cbFdd0Xfer, .cbFdd1Xfer] → writesDma i = false →
    exec i s = .next t → t.dma = { s.dma with err := t.dma.err } ∧ t.mem = s.mem) ∧
  (∀ (producer : BufId → Port) (s u : State) (drive : BitVec 8) (d : Fin 2) (dir side : Bool) (n1 n2 : Clock)
    (between : List Instr) (settle : Nat), d.val = drive.toNat → s.par.fddSettleCycles = some settle →
    (s.fdd[driveSlot d]).busy = false → 0 ≤ s.par.sdiff n1 s.now →
    (∀ j ∈ between, j ≠ .reset ∧ ∀ dir' n, j ≠ .fddStep drive dir' n) →
    runAll (.fddStep drive dir n1 :: between) s = some u →
    ∀ i ∈ [Instr.fddRead drive side n2, .fddWrite drive side n2], Contract producer i u → 0 ≤ s.par.sdiff n2 u.now →
      (settle : Int) ≤ s.par.sdiff n2 n1)

/-! ### ACSI -/

/-- ACSI_ATTACH and ACSI_DETACH (45_acsi.md R301, R302): the device after, in full; detaching an absent device is accepted
and changes nothing, an absent device having no image and no sectors (the invariant `AcsiOk`); ERR_BUSY on a device that is
not idle; ERR_BAD_SEL for a device not below `ACSI_NDEV`. -/
def Obligations.AcsiAttachment : Prop :=
  ∀ (s : State) (dev : BitVec 8) (h : Handle) (n : BitVec 32),
    (∀ k : Dev, k.val = dev.toNat → k.val < s.par.acsiNdev →
      let a := s.acsi[k]
      (a.phase = 7 →
        exec (.acsiAttach dev h n) s =
          .next (State.answer { s with
              acsi := s.acsi.set k { a with
                present := true, image := some h, sectors := n, status := s.par.acsiStOk, error := s.par.acsiENone,
                curLba := 0 } }
            (respWord 0 1 0 0 0)) ∧
        exec (.acsiDetach dev) s =
          .next (State.answer { s with acsi := s.acsi.set k { a with present := false, image := none, sectors := 0 } }
            (respWord 0 1 0 0 0)) ∧
        (a.present = false → a.image = none → a.sectors = 0 →
          exec (.acsiDetach dev) s = .next (s.answer (respWord 0 1 0 0 0)))) ∧
      (a.phase ≠ 7 →
        exec (.acsiAttach dev h n) s = .next (s.answer (respWord 0x06 0 0 0 0)) ∧
        exec (.acsiDetach dev) s = .next (s.answer (respWord 0x06 0 0 0 0)))) ∧
    (s.par.acsiNdev ≤ dev.toNat →
      exec (.acsiAttach dev h n) s = .next (s.answer (respWord 0x04 0 0 0 0)) ∧
      exec (.acsiDetach dev) s = .next (s.answer (respWord 0x04 0 0 0 0)))

/-- The bus byte (R303): the owner takes it as the next byte of its command; the sixth leaves the command complete (its
dispatch, which answers the write, is the next step: log entry 2); in phase 6 it is ignored; on a free bus the device its
top three bits name claims the bus, the low five bits being command byte 0, and a byte for no device is dropped. -/
def Obligations.BusByteRule : Prop :=
  ∀ (s : State) (v : Byte) (now : Clock), 0 ≤ s.par.sdiff now s.now →
    let o := s.acsiDev
    let a := s.acsi[o]
    (∀ p : Fin 5, a.phase.val = p.val →
      exec (.regWrAcsibusByte v now) s =
        .next (State.answer { s with
            now := now
            acsi := s.acsi.set o { a with cmd := a.cmd.set p.val v, phase := a.phase + 1 } }
          (respWord 0 1 0 0 0))) ∧
    (a.phase = 5 →
      exec (.regWrAcsibusByte v now) s =
        .next { s with
          now := now, acsi := s.acsi.set o { a with cmd := a.cmd.set 5 v, phase := 6 }, acsiPending := some o }) ∧
    (a.phase = 6 → exec (.regWrAcsibusByte v now) s = .next (State.answer { s with now := now } (respWord 0 1 0 0 0))) ∧
    (∀ k : Dev, k.val = (v.extractLsb' 5 3).toNat → a.phase = 7 →
      (k.val < s.par.acsiNdev → (s.acsi[k]).present = true →
        exec (.regWrAcsibusByte v now) s =
          .next (State.answer { s with
              now := now
              acsiDev := k
              acsi := s.acsi.set k { s.acsi[k] with cmd := (s.acsi[k]).cmd.set 0 (v &&& 0x1f), phase := 1 } }
            (respWord 0 1 0 0 0))) ∧
      ((s.par.acsiNdev ≤ k.val ∨ (s.acsi[k]).present = false) →
        exec (.regWrAcsibusByte v now) s = .next (State.answer { s with now := now } (respWord 0 1 0 0 0))))

/-- The commands that finish inside the bus write (R305 to R308, R312 to R315): the status and error code each leaves,
the bytes it moves through the DMA, and `Finish`: phase 7, `IRQ_DISK` up, the bus write answered. -/
def Obligations.ShortAcsiCommandsFinish : Prop :=
  ∀ (s : State) (k : Dev) (lba : BitVec 24) (count ctrl : Byte),
    let a := s.acsi[k]
    let finish : State → AcsiDev → Result := fun u d => .next (State.answer { u with
        acsi := s.acsi.set k { d with phase := 7 }
        acsiPending := none
        pins := { s.pins with disk := true }
        trace := u.trace ++ pinEdge s .disk true }
      (respWord 0 1 0 0 0))
    exec (.acsiReady k lba count ctrl) s = finish s { a with status := s.par.acsiStOk, error := s.par.acsiENone } ∧
    exec (.acsiRequestSense k lba count ctrl) s =
      finish (drqInAll ((List.range s.par.acsiSenseBytes).map fun j => if j = 0 then a.error else 0) s)
        { a with status := s.par.acsiStOk, error := s.par.acsiENone } ∧
    (a.sectors.toNat ≤ lba.toNat →
      exec (.acsiSeek k lba count ctrl) s =
        finish s { a with status := s.par.acsiStErr, error := s.par.acsiEAddr }) ∧
    (lba.toNat < a.sectors.toNat →
      exec (.acsiSeek k lba count ctrl) s =
        finish s { a with status := s.par.acsiStOk, error := s.par.acsiENone, curLba := lba }) ∧
    exec (.acsiInquiry k lba count ctrl) s =
      finish (drqInAll ((List.range s.par.acsiInquiryBytes).map (Config.acsiInquiry k.val)) s)
        { a with status := s.par.acsiStOk, error := s.par.acsiENone } ∧
    exec (.acsiModeSelect k lba count ctrl) s =
      finish (drqOutAll count.toNat s).2 { a with status := s.par.acsiStOk, error := s.par.acsiENone } ∧
    (∀ op : BitVec 5, exec (.acsiInvalid k op lba count ctrl) s =
      finish s { a with status := s.par.acsiStErr, error := s.par.acsiEOpcode })

/-- ACSI_FORMAT (R309; R306, 43_dma.md R243). With the first `n` oracle calls good and the next one failing, or `n` the
number of sectors: the first `n` sectors of the image are filled, one call for each in ascending order, and no other is
touched; a failure stops it there, with ACSI_E_WRITE and the DMA's error latch; in both cases it finishes. The DMA's bytes
and memory take no part. What the oracle answers is the model's data, log entry 9. -/
def Obligations.FormatFillsEverySector : Prop :=
  ∀ (s : State) (k : Dev) (lba : BitVec 24) (count ctrl : Byte) (h : Handle) (n : Nat), (s.acsi[k]).image = some h →
    n ≤ (s.acsi[k]).sectors.toNat → (∀ j < n, s.disks.ioFail[j]? ≠ some true) →
    (n < (s.acsi[k]).sectors.toNat → s.disks.ioFail[n]? = some true) →
    let fill := List.replicate s.par.acsiBlockBytes Config.acsiFill
    let fails := n < (s.acsi[k]).sectors.toNat
    ∃ t, exec (.acsiFormat k lba count ctrl) s = .next t ∧
      t.acsi = s.acsi.set k { s.acsi[k] with
        phase := 7
        status := if fails then s.par.acsiStErr else s.par.acsiStOk
        error := if fails then s.par.acsiEWrite else s.par.acsiENone } ∧
      t.dma = { s.dma with err := s.dma.err || fails } ∧ t.pins = { s.pins with disk := true } ∧ t.mem = s.mem ∧
      t.ag = s.ag ∧ t.disks.ghost = s.disks.ghost ∧
      t.trace = s.trace ++ (List.range n).map (fun j => .imgWrite h (BitVec.ofNat 32 j) fill true) ++
        (if fails then [.imgWrite h (BitVec.ofNat 32 n) fill false] else []) ++ pinEdge s .disk true ∧
      (∀ j < n, storeFind t.disks.image (sectorKey h (BitVec.ofNat 32 j)) = some fill) ∧
      (∀ key : Nat, (∀ j < n, key ≠ sectorKey h (BitVec.ofNat 32 j)) →
        storeFind t.disks.image key = storeFind s.disks.image key)

/-- The start of an ACSI read or write (R310, R311, R320): a range outside the image is an address error; a count of zero
finishes at once; in advanced timing the first block is scheduled one block time from now and the command stays in
phase 6. -/
def Obligations.AcsiTransfersStart : Prop :=
  ∀ (s : State) (k : Dev) (lba : BitVec 24) (count ctrl : Byte),
    ∀ op ∈ [(Instr.acsiRead k lba count ctrl, Dir.read), (.acsiWrite k lba count ctrl, .write)],
      let a := s.acsi[k]
      let finish : State → AcsiDev → Result := fun u d => .next (State.answer { u with
          acsi := s.acsi.set k { d with phase := 7 }
          acsiPending := none
          pins := { s.pins with disk := true }
          trace := s.trace ++ pinEdge s .disk true }
        (respWord 0 1 0 0 0))
      (a.sectors.toNat < lba.toNat + count.toNat →
        exec op.1 s = finish s { a with status := s.par.acsiStErr, error := s.par.acsiEAddr }) ∧
      (lba.toNat + count.toNat ≤ a.sectors.toNat → count = 0 →
        exec op.1 s =
          finish { s with ax := { dir := op.2, lba := lba.setWidth 32, left := 0 } }
            { a with status := s.par.acsiStOk, error := s.par.acsiENone, curLba := lba }) ∧
      (lba.toNat + count.toNat ≤ a.sectors.toNat → count ≠ 0 → s.cfg.getLsbD 0 = true →
        exec op.1 s =
          .next (State.answer { s with
              ag := s.ag.set acsiBlockId (some
                { fireTime := s.par.tadd s.now s.par.acsiBlockCycles, param := BitVec.ofNat 32 k.val })
              ax := { dir := op.2, lba := lba.setWidth 32, left := count.toNat }
              acsi := s.acsi.set k { a with status := s.par.acsiStOk, error := s.par.acsiENone, curLba := lba }
              acsiPending := none }
            (respWord 0 1 0 0 0)))

/-- An instant read (R310, R316, R318, R320; 43_dma.md R237 to R243): with the first `n` oracle calls good and the next one
failing, or `n` the count, the DMA set up and an address space that holds the blocks. Byte `m` of block `j` stands at
`addr + 512 j + m` for each of the `n` blocks that the sector counter admits, and no other byte of memory changes; a failure
ends the command with ACSI_E_READ and the DMA's error latch; in both cases it finishes in the same step. A block past the
counter is read and its bytes refused (R241). A `cur_lba` that does not fit 24 bits is a free value (log entry 13), what the
oracle answers the model's data (log entry 9). -/
def Obligations.InstantReadDelivers : Prop :=
  ∀ (s : State) (k : Dev) (lba : BitVec 24) (count ctrl : Byte) (h : Handle) (n : Nat), (s.acsi[k]).image = some h →
    s.par.dmaSectorBytes = 512 → s.par.acsiBlockBytes = 512 → lba.toNat + count.toNat ≤ (s.acsi[k]).sectors.toNat →
    s.par.Ok → 512 * count.toNat ≤ 2 ^ s.par.dmaAddrW → s.dma.addr.toNat < 2 ^ s.par.dmaAddrW →
    s.cfg.getLsbD 0 = false → MemoryOk s → s.dma.mcr.getLsbD 8 = false → s.dma.idx = 0 → s.dma.bct = 0 →
    n ≤ count.toNat → (∀ j < n, s.disks.ioFail[j]? ≠ some true) →
    (n < count.toNat → s.disks.ioFail[n]? = some true) →
    let fails := n < count.toNat
    let moved := min n s.dma.sct.toNat
    ∃ t, exec (.acsiRead k lba count ctrl) s = .next t ∧
      (∀ j < moved, ∀ m < 512,
        some (Memory.read t.mem (s.par.addrAt s.dma.addr (512 * j + m))) =
          (fitBytes 512 ((storeFind s.disks.image (sectorKey h (BitVec.ofNat 32 (lba.toNat + j)))).getD []))[m]?) ∧
      (∀ a : Addr, (∀ m < 512 * moved, a ≠ s.par.addrAt s.dma.addr m) →
        Memory.read t.mem a = Memory.read s.mem a) ∧
      t.dma.sct = s.dma.sct - BitVec.ofNat 32 moved ∧ t.dma.bct = 0 ∧ t.dma.idx = 0 ∧
      t.dma.addr = s.par.addrAt s.dma.addr (512 * moved) ∧ t.dma.err = (s.dma.err || fails) ∧
      (t.acsi[k]).status = (if fails then s.par.acsiStErr else s.par.acsiStOk) ∧
      (t.acsi[k]).error = (if fails then s.par.acsiERead else s.par.acsiENone) ∧ (t.acsi[k]).phase = 7 ∧
      (lba.toNat + n < 2 ^ 24 → (t.acsi[k]).curLba = lba + BitVec.ofNat 24 n) ∧ t.ax.left = 0 ∧
      t.disks = { s.disks with ioFail := s.disks.ioFail.drop (n + if fails then 1 else 0) } ∧
      t.pins = { s.pins with disk := true } ∧ t.cfg = s.cfg ∧ t.ag = s.ag

/-- An instant write (R311, R316, R318, R320; 43_dma.md R240 to R243), with the DMA set up: the first `n` blocks of memory
from `addr` on, 512 bytes each, are the image's sectors from `lba` on, and no other sector changes. `n` is the count; or
the oracle refuses block `n`, which sets the DMA's error latch after its bytes were taken; or the sector counter was `n`
and the DMA gives no byte, which makes no call. In the two last the command ends with ACSI_E_WRITE. In all it finishes in
the same step and memory stays. A `cur_lba` that does not fit 24 bits is a free value (log entry 13), what the oracle
answers the model's data (log entry 9). -/
def Obligations.InstantWriteDelivers : Prop :=
  ∀ (s : State) (k : Dev) (lba : BitVec 24) (count ctrl : Byte) (h : Handle) (n : Nat), (s.acsi[k]).image = some h →
    s.par.dmaSectorBytes = 512 → s.par.acsiBlockBytes = 512 → lba.toNat + count.toNat ≤ (s.acsi[k]).sectors.toNat →
    s.par.Ok → s.dma.addr.toNat < 2 ^ s.par.dmaAddrW → s.cfg.getLsbD 0 = false → s.dma.mcr.getLsbD 8 = true →
    s.dma.idx = 0 → s.dma.bct = 0 →
    n ≤ count.toNat → n ≤ s.dma.sct.toNat → (∀ j < n, s.disks.ioFail[j]? ≠ some true) →
    (n < count.toNat → s.dma.sct.toNat = n ∨ s.disks.ioFail[n]? = some true) →
    let fails := n < count.toNat
    let refused := fails ∧ n < s.dma.sct.toNat
    let taken := n + if refused then 1 else 0
    ∃ t, exec (.acsiWrite k lba count ctrl) s = .next t ∧
      (∀ j < n,
        storeFind t.disks.image (sectorKey h (BitVec.ofNat 32 (lba.toNat + j))) =
          some ((List.range 512).map fun m => Memory.read s.mem (s.par.addrAt s.dma.addr (512 * j + m)))) ∧
      (∀ key : Nat, (∀ j < n, key ≠ sectorKey h (BitVec.ofNat 32 (lba.toNat + j))) →
        storeFind t.disks.image key = storeFind s.disks.image key) ∧
      t.disks.ghost = s.disks.ghost ∧ t.disks.ioFail = s.disks.ioFail.drop taken ∧ t.mem = s.mem ∧
      t.dma.sct = s.dma.sct - BitVec.ofNat 32 taken ∧ t.dma.bct = 0 ∧ t.dma.idx = 0 ∧
      t.dma.addr = s.par.addrAt s.dma.addr (512 * taken) ∧ t.dma.err = (s.dma.err || refused) ∧
      (t.acsi[k]).status = (if fails then s.par.acsiStErr else s.par.acsiStOk) ∧
      (t.acsi[k]).error = (if fails then s.par.acsiEWrite else s.par.acsiENone) ∧ (t.acsi[k]).phase = 7 ∧
      (lba.toNat + n < 2 ^ 24 → (t.acsi[k]).curLba = lba + BitVec.ofNat 24 n) ∧ t.ax.left = 0 ∧
      t.pins = { s.pins with disk := true } ∧ t.cfg = s.cfg ∧ t.ag = s.ag

/-- The block callback (R316, R319), in both directions: a block that moves goes on to the next, one block time after this
one's fire time, or finishes with the last; a failing oracle call, or a byte the DMA would not give, ends the transfer with
its error code. A `cur_lba` that does not fit 24 bits is a free value (log entry 13). Whether the oracle's call fails, that a
failed one leaves the image as it was, and the zero of a byte that is not listed, are the model's data, log entry 9. -/
def Obligations.BlockCallback : Prop :=
  ∀ (s : State) (k : Dev) (e : AgEntry) (h : Handle), s.ag[acsiBlockId] = some e → e.param = BitVec.ofNat 32 k.val →
    (s.acsi[k]).image = some h →
    let a := s.acsi[k]
    let base := { s with ag := s.ag.set acsiBlockId none }
    let popped := { s.disks with ioFail := s.disks.ioFail.tail }
    let data := fitBytes s.par.acsiBlockBytes ((storeFind s.disks.image (sectorKey h s.ax.lba)).getD [])
    let got := drqOutAll s.par.acsiBlockBytes base
    let fails : State → Byte → Result := fun u error => .next { u with
      acsi := s.acsi.set k { a with status := s.par.acsiStErr, error := error, phase := 7 }
      ax := { s.ax with left := 0 }
      pins := { s.pins with disk := true }
      trace := u.trace ++ pinEdge s .disk true }
    let moved : State → Result := fun u =>
      if s.ax.left ≤ 1 then
        .next { u with
          acsi := s.acsi.set k { a with curLba := curLbaOf (s.ax.lba + 1), phase := 7 }
          ax := { s.ax with lba := s.ax.lba + 1, left := 0 }
          pins := { s.pins with disk := true }
          trace := u.trace ++ pinEdge s .disk true }
      else
        .next { u with
          ag := s.ag.set acsiBlockId (some { fireTime := s.par.tadd e.fireTime s.par.acsiBlockCycles, param := e.param })
          acsi := s.acsi.set k { a with curLba := curLbaOf (s.ax.lba + 1) }
          ax := { s.ax with lba := s.ax.lba + 1, left := s.ax.left - 1 } }
    (s.ax.dir = .read → s.disks.ioFail.head? ≠ some true →
      exec .cbAcsiBlock s =
        moved (drqInAll data { base with disks := popped, trace := s.trace ++ [.imgRead h s.ax.lba (some data)] })) ∧
    (s.ax.dir = .read → s.disks.ioFail.head? = some true →
      exec .cbAcsiBlock s =
        fails { base with
            disks := popped, trace := s.trace ++ [.imgRead h s.ax.lba none], dma := { s.dma with err := true } }
          s.par.acsiERead) ∧
    (s.ax.dir = .write → none ∈ got.1 → exec .cbAcsiBlock s = fails got.2 s.par.acsiEWrite) ∧
    (∀ bytes : List Byte, s.ax.dir = .write → got.1 = bytes.map some →
      (s.disks.ioFail.head? = some true →
        exec .cbAcsiBlock s =
          fails { got.2 with
              disks := popped
              trace := got.2.trace ++ [.imgWrite h s.ax.lba bytes false]
              dma := { got.2.dma with err := true } }
            s.par.acsiEWrite) ∧
      (s.disks.ioFail.head? ≠ some true →
        exec .cbAcsiBlock s =
          moved { got.2 with
            disks := { popped with image := storePut s.disks.image (sectorKey h s.ax.lba) bytes }
            trace := got.2.trace ++ [.imgWrite h s.ax.lba bytes true] }))

/-- No ACSI command writes `CFG`, whatever its outcome, and in instant timing none touches the Agenda (R318); the timing
mode of a transfer in flight is not read again: a block callback never looks at `CFG` (R317). -/
def Obligations.AcsiKeepsTimingMode : Prop :=
  (∀ (s t : State) (k : Dev) (op : BitVec 5) (lba : BitVec 24) (count ctrl : Byte),
    ∀ i ∈ [Instr.acsiReady k lba count ctrl, .acsiRequestSense k lba count ctrl, .acsiFormat k lba count ctrl,
      .acsiRead k lba count ctrl, .acsiWrite k lba count ctrl, .acsiSeek k lba count ctrl,
      .acsiInquiry k lba count ctrl, .acsiModeSelect k lba count ctrl, .acsiInvalid k op lba count ctrl],
      exec i s = .next t →
        t.cfg = s.cfg ∧ (s.cfg.getLsbD 0 = false → t.ag = s.ag) ∧
        (∀ c : CbId, c ≠ acsiBlockId → t.ag[c] = s.ag[c])) ∧
  (∀ (s t : State) (cfg : Byte), exec .cbAcsiBlock s = .next t →
    exec .cbAcsiBlock { s with cfg := cfg } = .next { t with cfg := cfg })

/-- Every step keeps the bus invariant (10_state.md R48 to R50; 45_acsi.md R301, R302) under legal parameters (log entry 6):
at most the owner is not idle, an absent device is idle and has no image and no sectors, and an owner in phase 6 has its
command to dispatch or its next block pending. The dispatch as a step of its own, with the command owed until then, is the
model's choice, log entry 2; that command byte 0 has five bits is log entry 26. -/
def Obligations.AcsiInvariant : Prop := ∀ s t, s.par.Ok → AcsiOk s → step s = .next t → AcsiOk t

/-! ### Registers -/

/-- The ENGINE registers (40_agenda.md R145): CFG, STATUS by its bits (10_state.md R28), NOW, PENDING with bit `c` for slot
`c`, of the `NCB` there are (R29); a read changes nothing but `NOW`. CFG takes 0 and 1 and refuses any other value with
ERR_RESERVED, before the time is looked at (60_exceptions.md R352). -/
def Obligations.EngineRegisters : Prop :=
  ∀ (s : State) (now : Clock),
    (0 ≤ s.par.sdiff now s.now →
      let at_ := { s with now := now }
      exec (.regRdEngineCfg now) s = .next (at_.answer (respWord 0 3 0 (s.cfg.setWidth 32) 0)) ∧
      exec (.regRdEngineStatus now) s =
        .next (at_.answer (respWord 0 3 0
          ((if s.disp = .idle then 0 else 1) + (if s.disp = .waitAck then 2 + 256 * s.fireCb.setWidth 32 else 0)
            + (if s.pins.kbd then 0x10000 else 0) + (if s.pins.midi then 0x20000 else 0)
            + (if s.pins.disk then 0x40000 else 0)) 0)) ∧
      exec (.regRdEngineNow now) s = .next (at_.answer (respWord 0 3 0 0 now)) ∧
      (∃ data : BitVec 32, exec (.regRdEnginePending now) s = .next (at_.answer (respWord 0 3 0 data 0)) ∧
        ∀ c : CbId, c.val < 32 → data.getLsbD c.val = (decide (c.val < s.par.ncb) && (s.ag[c]).isSome)) ∧
      (∀ v : Byte, v.toNat < 2 →
        exec (.regWrEngineCfg v now) s = .next (State.answer { at_ with cfg := v } (respWord 0 1 0 0 0)))) ∧
    (∀ v : Byte, 2 ≤ v.toNat → exec (.regWrEngineCfg v now) s = .next (s.answer (respWord 0x02 0 0 0 0)))

/-- The observation reads of the DMA (43_dma.md R244; STATUS by 10_state.md R40, FIFOCTL by R42), the drives and the
inspection slot (44_floppy.md R282, R284; FLAGS by 10_state.md R44) and the ACSI bus and devices (45_acsi.md R321, R322):
each answers its element and changes nothing but `NOW`. The two reads that lower `IRQ_DISK` (44_floppy.md R281, 45_acsi.md
R321; 60_exceptions.md R357), COND and the bus status, answer the value as it was; the line falls whichever side raised
it. -/
def Obligations.ObservationReads : Prop :=
  ∀ (s : State) (now : Clock) (j : Fin 16) (d : Fin 2) (k : Dev), 0 ≤ s.par.sdiff now s.now →
    let m := s.dma
    let f := s.fdd[driveSlot d]
    let z := s.fdd[(2 : Fin 3)]
    let a := s.acsi[k]
    let flags := fun (x : Fdd) => (if x.motor then 0x01 else 0) + (if x.reading then 0x02 else 0)
      + (if x.writing then 0x04 else 0) + (if x.disk = none then 0x08 else 0) + (if x.singleSided then 0x10 else 0)
      + (if x.ghost then (0x20 : BitVec 32) else 0)
    (∀ r ∈ ([
        (.regRdDmaStatus now, (if m.err then 0 else 1) + (if m.sct = 0 then 0 else 2) + (if m.drq then 4 else 0)),
        (.regRdDmaSct now, m.sct), (.regRdDmaAddr now, m.addr),
        (.regRdDmaBct now, m.bct.setWidth 32), (.regRdDmaMcr now, m.mcr.setWidth 32),
        (.regRdDmaFifoctl now, BitVec.ofNat 32 m.idx.val + (if m.sel = 0 then 0 else 0x10)
          + (if m.drq then 0x20 else 0) + (if m.err then 0x40 else 0)),
        (.regRdDmaFifo0 j now, ((m.fifo[0])[j]).setWidth 32), (.regRdDmaFifo1 j now, ((m.fifo[1])[j]).setWidth 32),
        (.regRdFddTrack d now, f.track.setWidth 32), (.regRdFddFlags d now, flags f), (.regRdFddCpb d now, f.cpb),
        (.regRdFdd2Flags now, flags z),
        (.regRdAcsibusOwner now, BitVec.ofNat 32 s.acsiDev.val),
        (.regRdAcsidevPhase k now, BitVec.ofNat 32 a.phase.val), (.regRdAcsidevStatus k now, a.status.setWidth 32),
        (.regRdAcsidevError k now, a.error.setWidth 32), (.regRdAcsidevSectors k now, a.sectors),
        (.regRdAcsidevFlags k now, if a.present then 1 else 0), (.regRdAcsidevCurLba k now, a.curLba.setWidth 32),
        (.regRdAcsidevCmd0 k now, (a.cmd[0]).setWidth 32), (.regRdAcsidevCmd1 k now, (a.cmd[1]).setWidth 32),
        (.regRdAcsidevCmd2 k now, (a.cmd[2]).setWidth 32), (.regRdAcsidevCmd3 k now, (a.cmd[3]).setWidth 32),
        (.regRdAcsidevCmd4 k now, (a.cmd[4]).setWidth 32), (.regRdAcsidevCmd5 k now, (a.cmd[5]).setWidth 32)]
        : List (Instr × BitVec 32)),
      exec r.1 s = .next (State.answer { s with now := now } (respWord 0 3 0 r.2 0))) ∧
    (∀ r ∈ ([(.regRdFddTlast d now, f.tLast), (.regRdFddTnext d now, f.tNext)] : List (Instr × Clock)),
      exec r.1 s = .next (State.answer { s with now := now } (respWord 0 3 0 0 r.2))) ∧
    (∀ r ∈ [(Instr.regRdFddCond d now, f.cond), (.regRdAcsibusStatus now, (s.acsi[s.acsiDev]).status)],
      exec r.1 s =
        .next (State.answer { s with
            now := now
            pins := { s.pins with disk := false }
            trace := s.trace ++ pinEdge s .disk false }
          (respWord 0 3 0 (r.2.setWidth 32) 0)))

/-- REG_RD and REG_WR as whole operations (40_agenda.md R143, R144): at a register's address they do what the register's own
instruction does; a unit with no registers (above `7 + ACSI_NDEV`) is ERR_BAD_SEL, and in a unit that exists every index
that names no readable register, or for a write no writable one, is ERR_BAD_IDX, whatever the value and the time, with `NOW`
as it was (20_memory.md R71; 30_encoding.md R108, R110 to R117). Of the two, NOW and the DMA's counter are said in full. -/
def Obligations.RegisterOperations : Prop :=
  let readable : Nat → List Nat := fun unit =>
    if unit = 0 then [0, 1, 2, 3]
    else if unit ≤ 2 then [0, 1, 2, 3, 4, 5, 6]
    else if unit = 3 then [0, 1, 2, 3, 4, 5] ++ List.range' 16 32
    else if unit ≤ 5 then [0, 1, 2, 3, 4, 5, 6]
    else if unit = 6 then [1]
    else if unit = 7 then [0, 1]
    else [0, 1, 2, 3, 4, 5, 8, 9, 10, 11, 12, 13]
  let writable : Nat → List Nat := fun unit =>
    if unit = 0 then [0]
    else if unit ≤ 2 then [0, 1]
    else if unit = 3 then [0, 1, 2]
    else if unit ≤ 5 then [3]
    else if unit = 7 then [0]
    else []
  (∀ (s : State) (unit : BitVec 8) (reg : BitVec 16) (v : BitVec 32) (now : Clock) (i : Instr),
    (decode s.par .E (Cmd.toWord ⟨0x30, unit, reg, 0, now⟩) = .ok i → exec (.regRd unit reg now) s = exec i s) ∧
    (decode s.par .E (Cmd.toWord ⟨0x31, unit, reg, v, now⟩) = .ok i → exec (.regWr unit reg v now) s = exec i s)) ∧
  (∀ (s : State) (unit : BitVec 8) (reg : BitVec 16) (v : BitVec 32) (now : Clock), s.par.Ok →
    (8 + s.par.acsiNdev ≤ unit.toNat →
      exec (.regRd unit reg now) s = .next (s.answer (respWord 0x04 0 0 0 0)) ∧
      exec (.regWr unit reg v now) s = .next (s.answer (respWord 0x04 0 0 0 0))) ∧
    (unit.toNat < 8 + s.par.acsiNdev → reg.toNat ∉ readable unit.toNat →
      exec (.regRd unit reg now) s = .next (s.answer (respWord 0x05 0 0 0 0))) ∧
    (unit.toNat < 8 + s.par.acsiNdev → reg.toNat ∉ writable unit.toNat →
      exec (.regWr unit reg v now) s = .next (s.answer (respWord 0x05 0 0 0 0))) ∧
    (0 ≤ s.par.sdiff now s.now →
      exec (.regRd 0 2 now) s = .next (State.answer { s with now := now } (respWord 0 3 0 0 now)) ∧
      (v.toNat < 2 ^ s.par.dmaSctW →
        exec (.regWr 3 1 v now) s =
          .next (State.answer { s with now := now, dma := { s.dma with sct := v } } (respWord 0 1 0 0 0)))) ∧
    (2 ^ s.par.dmaSctW ≤ v.toNat → exec (.regWr 3 1 v now) s = .next (s.answer (respWord 0x02 0 0 0 0))))

/-! ### The whole machine -/

/-- The parameters being legal (log entries 6 and 28), every step keeps the buffers' form (10_state.md R30, R31;
41_circular_buffer.md R163), and with it that every unread slot has been written (10_state.md R58); the ACIA lines and their
completions together (42_acia.md R192, R195, R199, R206 to R209), the DMA's byte counter a multiple of 16 below a sector
(10_state.md R41), and every field within its width, a capacity within its 17 bits, and every slot within its count
(00_scope.md R8). No step changes the parameters (log entry 6). -/
def Obligations.PartsKeepTheirForm : Prop :=
  (∀ s t, s.par.Ok → BuffersOk s → step s = .next t → BuffersOk t) ∧
  (∀ s t, s.par.Ok → BuffersOk s → (∀ b : BufId, (s.cb[b]).Written) → step s = .next t →
    ∀ b : BufId, (t.cb[b]).Written) ∧
  (∀ s t, s.par.Ok → (∀ i : Fin 2, LinesOk s i) → step s = .next t → ∀ i : Fin 2, LinesOk t i) ∧
  (∀ s t, s.par.Ok → DmaOk s → step s = .next t → DmaOk t) ∧
  (∀ s t, s.par.Ok → WidthsOk s → step s = .next t → WidthsOk t) ∧
  (∀ s t, step s = .next t → t.par = s.par)

/-- Every step keeps the dispatcher's form (10_state.md R25, 60_exceptions.md R359), the parameters being legal (log entries 6
and 28): a running loop has its ADVANCE or FIRE_ACK at the head of port E, an owed ACSI dispatch its bus write, and what
waits for an acknowledge is an external identity. That the word stays at the head meanwhile is the model's choice, log
entries 1 and 2. -/
def Obligations.DispatchInvariant : Prop := ∀ s t, s.par.Ok → DispatchOk s → step s = .next t → DispatchOk t

/-- The machine after reset meets every invariant stated here, under any legal parameters, the reset values among them
(10_state.md R57, 70_reset_and_hazards.md R391, R392); nothing runs by itself: no entry is pending, no motor turns, no pin is
high, no transfer is in flight (R391). The defaults of 00_scope.md R8 are legal. Which records are legal is the model's, log
entries 6 and 28. -/
def Obligations.ResetMeetsTheInvariants : Prop :=
  Params.default.Ok ∧ State.reset = .cold .default ∧
  ∀ p : Params, p.Ok →
    let s := State.cold p
    s.par = p ∧ MemoryOk s ∧ (∀ i : Fin 2, AciaOk s i ∧ LinesOk s i) ∧ DmaOk s ∧ (∀ d : Fin 2, DriveOk s d) ∧
    InspectionOk s ∧ AcsiOk s ∧ BuffersOk s ∧ (∀ b : BufId, (s.cb[b]).Written) ∧ DispatchOk s ∧ WidthsOk s ∧ HalfRange s ∧
    OneDiskUser s ∧ (∀ c : CbId, s.ag[c] = none) ∧ s.disp = .idle ∧
    (∀ d : Fin 3, (s.fdd[d]).motor = false ∧ (s.fdd[d]).busy = false) ∧ (∀ k : Dev, (s.acsi[k]).phase = 7) ∧
    ∀ l : IrqLine, s.pins.level l = false
end

