-- ==== Sys2Proof/Laws/Decode.lean ====
section
/-! SUPPORT. The fields of a command word and of a command block: packing and unpacking are inverse. -/

namespace Sys2Proof

theorem Cmd.toWord_toNat (c : Cmd) :
    c.toWord.toNat =
      c.op.toNat * 2 ^ 120 + c.sel.toNat * 2 ^ 112 + c.idx.toNat * 2 ^ 96 + c.param.toNat * 2 ^ 64 + c.time.toNat := by
  have h1 := c.op.isLt
  have h2 := c.sel.isLt
  have h3 := c.idx.isLt
  have h4 := c.param.isLt
  have h5 := c.time.isLt
  simp only [Cmd.toWord, BitVec.toNat_cast, BitVec.toNat_append]
  rw [← Nat.shiftLeft_add_eq_or_of_lt h5, ← Nat.shiftLeft_add_eq_or_of_lt h4, ← Nat.shiftLeft_add_eq_or_of_lt h3,
    ← Nat.shiftLeft_add_eq_or_of_lt h2]
  simp only [Nat.shiftLeft_eq]
  omega

@[simp] theorem Cmd.ofWord_toWord (c : Cmd) : Cmd.ofWord c.toWord = c := by
  have h1 := c.op.isLt
  have h2 := c.sel.isLt
  have h3 := c.idx.isLt
  have h4 := c.param.isLt
  have h5 := c.time.isLt
  have hw := c.toWord_toNat
  obtain ⟨op, sel, idx, param, time⟩ := c
  simp only [Cmd.ofWord, Cmd.mk.injEq]
  refine ⟨?_, ?_, ?_, ?_, ?_⟩ <;> apply BitVec.eq_of_toNat_eq <;>
    simp only [BitVec.extractLsb'_toNat, hw, Nat.shiftRight_eq_div_pow] <;> omega

@[simp] theorem Cmd.toWord_ofWord (w : Word128) : (Cmd.ofWord w).toWord = w := by
  apply BitVec.eq_of_toNat_eq
  rw [Cmd.toWord_toNat]
  have h := w.isLt
  simp only [Cmd.ofWord, BitVec.extractLsb'_toNat, Nat.shiftRight_eq_div_pow]
  omega

/-- Decoding a word built from fields is decoding the fields. -/
@[simp] theorem decode_toWord (p : Params) (port : Port) (c : Cmd) :
    decode p port c.toWord = decodeCmd p port c := by
  rw [decode, Cmd.ofWord_toWord]

/-- On port E an operation is decoded by its own must-be-zero checks. -/
theorem decodeCmd_E (p : Params) (c : Cmd) (op : Op) (h : opOf c.op = some op) : decodeCmd p .E c = build p op c := by
  simp [decodeCmd, h]

/-! ### The fields whose widths are parameters -/

theorem nowFits_iff (p : Params) (time : BitVec 64) : nowFits p time = true ↔ time.toNat < 2 ^ p.cw := decide_eq_true_iff

theorem paramFits_iff (p : Params) (param : BitVec 32) : paramFits p param = true ↔ param.toNat < 2 ^ p.pw :=
  decide_eq_true_iff

theorem delayFits_iff (p : Params) (time : BitVec 64) :
    delayFits p time = true ↔ (time.toNat : Int).bmod (2 ^ p.cw) = time.toInt := beq_iff_eq

/-- A delay is within `CW` bits. -/
theorem delayOf_lt (p : Params) (time : BitVec 64) : (delayOf p time).toNat < 2 ^ p.cw := by
  have h : time.toNat % 2 ^ p.cw < 2 ^ p.cw := Nat.mod_lt _ (Nat.two_pow_pos _)
  have h' := Nat.mod_le (time.toNat % 2 ^ p.cw) (2 ^ 64)
  simp only [delayOf, BitVec.toNat_ofNat]
  omega

/-- A field that fits is the encoding of its delay. -/
theorem timeOfDelay_delayOf (p : Params) (time : BitVec 64) (h : delayFits p time = true) :
    timeOfDelay p (delayOf p time) = time := by
  rw [delayFits_iff] at h
  have hle : time.toNat % 2 ^ p.cw % 2 ^ 64 = time.toNat % 2 ^ p.cw := by
    have := Nat.mod_le time.toNat (2 ^ p.cw)
    have := time.isLt
    omega
  unfold timeOfDelay delayOf
  rw [BitVec.toNat_ofNat, hle]
  have e : ((time.toNat % 2 ^ p.cw : Nat) : Int).bmod (2 ^ p.cw) = (time.toNat : Int).bmod (2 ^ p.cw) := by
    rw [Int.natCast_mod, Int.emod_bmod]
  rw [e, h, BitVec.ofInt_toInt]

theorem ifClear_ok (b : Bool) (i j : Instr) : ifClear b i = .ok j ↔ b = true ∧ i = j := by
  unfold ifClear
  split <;> simp_all

theorem ifClear_error (b : Bool) (i : Instr) (e : ErrCode) : ifClear b i = .error e ↔ b = false ∧ e = .reserved := by
  unfold ifClear
  split <;> simp_all [eq_comm]

theorem acsiWord_toNat (dev : Dev) (op : BitVec 5) (lba : BitVec 24) (count ctrl : Byte) :
    ((BitVec.ofNat 3 dev.val ++ op ++ lba ++ count ++ ctrl).cast rfl : BitVec 48).toNat =
      dev.val * 2 ^ 45 + op.toNat * 2 ^ 40 + lba.toNat * 2 ^ 16 + count.toNat * 2 ^ 8 + ctrl.toNat := by
  have h1 : dev.val < 8 := dev.isLt
  have h2 := op.isLt
  have h3 := lba.isLt
  have h4 := count.isLt
  have h5 := ctrl.isLt
  simp only [BitVec.toNat_cast, BitVec.toNat_append]
  rw [← Nat.shiftLeft_add_eq_or_of_lt h5, ← Nat.shiftLeft_add_eq_or_of_lt h4, ← Nat.shiftLeft_add_eq_or_of_lt h3,
    ← Nat.shiftLeft_add_eq_or_of_lt h2]
  simp only [Nat.shiftLeft_eq, BitVec.toNat_ofNat]
  omega

end Sys2Proof
end

