-- ==== Sys2Proof/Laws/State.lean ====
section
/-! SUPPORT. One lemma for each field of the state under each plain update: what the update leaves, and what it sets. -/

namespace Sys2Proof.Machine

/-! ### State.answer -/

@[simp] theorem State.answer_par (s : State) (w : Word128) :
    (s.answer w).par = s.par := by unfold State.answer; split <;> rfl
@[simp] theorem State.answer_now (s : State) (w : Word128) :
    (s.answer w).now = s.now := by unfold State.answer; split <;> rfl
@[simp] theorem State.answer_cfg (s : State) (w : Word128) :
    (s.answer w).cfg = s.cfg := by unfold State.answer; split <;> rfl
@[simp] theorem State.answer_ag (s : State) (w : Word128) :
    (s.answer w).ag = s.ag := by unfold State.answer; split <;> rfl
@[simp] theorem State.answer_disp (s : State) (w : Word128) :
    (s.answer w).disp = s.disp := by unfold State.answer; split <;> rfl
@[simp] theorem State.answer_advTarget (s : State) (w : Word128) :
    (s.answer w).advTarget = s.advTarget := by unfold State.answer; split <;> rfl
@[simp] theorem State.answer_fireCb (s : State) (w : Word128) :
    (s.answer w).fireCb = s.fireCb := by unfold State.answer; split <;> rfl
@[simp] theorem State.answer_fireParam (s : State) (w : Word128) :
    (s.answer w).fireParam = s.fireParam := by unfold State.answer; split <;> rfl
@[simp] theorem State.answer_fireTime (s : State) (w : Word128) :
    (s.answer w).fireTime = s.fireTime := by unfold State.answer; split <;> rfl
@[simp] theorem State.answer_cb (s : State) (w : Word128) :
    (s.answer w).cb = s.cb := by unfold State.answer; split <;> rfl
@[simp] theorem State.answer_acia (s : State) (w : Word128) :
    (s.answer w).acia = s.acia := by unfold State.answer; split <;> rfl
@[simp] theorem State.answer_dma (s : State) (w : Word128) :
    (s.answer w).dma = s.dma := by unfold State.answer; split <;> rfl
@[simp] theorem State.answer_fdd (s : State) (w : Word128) :
    (s.answer w).fdd = s.fdd := by unfold State.answer; split <;> rfl
@[simp] theorem State.answer_lastStep (s : State) (w : Word128) :
    (s.answer w).lastStep = s.lastStep := by unfold State.answer; split <;> rfl
@[simp] theorem State.answer_acsi (s : State) (w : Word128) :
    (s.answer w).acsi = s.acsi := by unfold State.answer; split <;> rfl
@[simp] theorem State.answer_acsiDev (s : State) (w : Word128) :
    (s.answer w).acsiDev = s.acsiDev := by unfold State.answer; split <;> rfl
@[simp] theorem State.answer_ax (s : State) (w : Word128) :
    (s.answer w).ax = s.ax := by unfold State.answer; split <;> rfl
@[simp] theorem State.answer_pins (s : State) (w : Word128) :
    (s.answer w).pins = s.pins := by unfold State.answer; split <;> rfl
@[simp] theorem State.answer_trace (s : State) (w : Word128) :
    (s.answer w).trace = s.trace := by unfold State.answer; split <;> rfl
@[simp] theorem State.answer_acsiPending (s : State) (w : Word128) :
    (s.answer w).acsiPending = s.acsiPending := by unfold State.answer; split <;> rfl
@[simp] theorem State.answer_serving (s : State) (w : Word128) :
    (s.answer w).serving = s.serving := by unfold State.answer; split <;> rfl
@[simp] theorem State.answer_picks (s : State) (w : Word128) :
    (s.answer w).picks = s.picks := by unfold State.answer; split <;> rfl
@[simp] theorem State.answer_mem (s : State) (w : Word128) :
    (s.answer w).mem = s.mem := by unfold State.answer; split <;> rfl
@[simp] theorem State.answer_disks (s : State) (w : Word128) :
    (s.answer w).disks = s.disks := by unfold State.answer; split <;> rfl

/-! ### State.emit -/

@[simp] theorem State.emit_par (s : State) (e : Event) : (s.emit e).par = s.par := rfl
@[simp] theorem State.emit_now (s : State) (e : Event) : (s.emit e).now = s.now := rfl
@[simp] theorem State.emit_cfg (s : State) (e : Event) : (s.emit e).cfg = s.cfg := rfl
@[simp] theorem State.emit_ag (s : State) (e : Event) : (s.emit e).ag = s.ag := rfl
@[simp] theorem State.emit_disp (s : State) (e : Event) : (s.emit e).disp = s.disp := rfl
@[simp] theorem State.emit_advTarget (s : State) (e : Event) : (s.emit e).advTarget = s.advTarget := rfl
@[simp] theorem State.emit_fireCb (s : State) (e : Event) : (s.emit e).fireCb = s.fireCb := rfl
@[simp] theorem State.emit_fireParam (s : State) (e : Event) : (s.emit e).fireParam = s.fireParam := rfl
@[simp] theorem State.emit_fireTime (s : State) (e : Event) : (s.emit e).fireTime = s.fireTime := rfl
@[simp] theorem State.emit_cb (s : State) (e : Event) : (s.emit e).cb = s.cb := rfl
@[simp] theorem State.emit_acia (s : State) (e : Event) : (s.emit e).acia = s.acia := rfl
@[simp] theorem State.emit_dma (s : State) (e : Event) : (s.emit e).dma = s.dma := rfl
@[simp] theorem State.emit_fdd (s : State) (e : Event) : (s.emit e).fdd = s.fdd := rfl
@[simp] theorem State.emit_lastStep (s : State) (e : Event) : (s.emit e).lastStep = s.lastStep := rfl
@[simp] theorem State.emit_acsi (s : State) (e : Event) : (s.emit e).acsi = s.acsi := rfl
@[simp] theorem State.emit_acsiDev (s : State) (e : Event) : (s.emit e).acsiDev = s.acsiDev := rfl
@[simp] theorem State.emit_ax (s : State) (e : Event) : (s.emit e).ax = s.ax := rfl
@[simp] theorem State.emit_pins (s : State) (e : Event) : (s.emit e).pins = s.pins := rfl
@[simp] theorem State.emit_trace (s : State) (e : Event) : (s.emit e).trace = s.trace ++ [e] := rfl
@[simp] theorem State.emit_acsiPending (s : State) (e : Event) : (s.emit e).acsiPending = s.acsiPending := rfl
@[simp] theorem State.emit_serving (s : State) (e : Event) : (s.emit e).serving = s.serving := rfl
@[simp] theorem State.emit_portE (s : State) (e : Event) : (s.emit e).portE = s.portE := rfl
@[simp] theorem State.emit_portX (s : State) (e : Event) : (s.emit e).portX = s.portX := rfl
@[simp] theorem State.emit_picks (s : State) (e : Event) : (s.emit e).picks = s.picks := rfl
@[simp] theorem State.emit_mem (s : State) (e : Event) : (s.emit e).mem = s.mem := rfl
@[simp] theorem State.emit_disks (s : State) (e : Event) : (s.emit e).disks = s.disks := rfl

/-! ### State.schedule -/

@[simp] theorem State.schedule_par (s : State) (c : CbId) (d : Clock) (p : Param) :
    (s.schedule c d p).par = s.par := rfl
@[simp] theorem State.schedule_now (s : State) (c : CbId) (d : Clock) (p : Param) :
    (s.schedule c d p).now = s.now := rfl
@[simp] theorem State.schedule_cfg (s : State) (c : CbId) (d : Clock) (p : Param) :
    (s.schedule c d p).cfg = s.cfg := rfl
@[simp] theorem State.schedule_ag (s : State) (c : CbId) (d : Clock) (p : Param) :
    (s.schedule c d p).ag = s.ag.set c (some { fireTime := s.par.tadd s.now d, param := p }) := rfl
@[simp] theorem State.schedule_disp (s : State) (c : CbId) (d : Clock) (p : Param) :
    (s.schedule c d p).disp = s.disp := rfl
@[simp] theorem State.schedule_advTarget (s : State) (c : CbId) (d : Clock) (p : Param) :
    (s.schedule c d p).advTarget = s.advTarget := rfl
@[simp] theorem State.schedule_fireCb (s : State) (c : CbId) (d : Clock) (p : Param) :
    (s.schedule c d p).fireCb = s.fireCb := rfl
@[simp] theorem State.schedule_fireParam (s : State) (c : CbId) (d : Clock) (p : Param) :
    (s.schedule c d p).fireParam = s.fireParam := rfl
@[simp] theorem State.schedule_fireTime (s : State) (c : CbId) (d : Clock) (p : Param) :
    (s.schedule c d p).fireTime = s.fireTime := rfl
@[simp] theorem State.schedule_cb (s : State) (c : CbId) (d : Clock) (p : Param) :
    (s.schedule c d p).cb = s.cb := rfl
@[simp] theorem State.schedule_acia (s : State) (c : CbId) (d : Clock) (p : Param) :
    (s.schedule c d p).acia = s.acia := rfl
@[simp] theorem State.schedule_dma (s : State) (c : CbId) (d : Clock) (p : Param) :
    (s.schedule c d p).dma = s.dma := rfl
@[simp] theorem State.schedule_fdd (s : State) (c : CbId) (d : Clock) (p : Param) :
    (s.schedule c d p).fdd = s.fdd := rfl
@[simp] theorem State.schedule_lastStep (s : State) (c : CbId) (d : Clock) (p : Param) :
    (s.schedule c d p).lastStep = s.lastStep := rfl
@[simp] theorem State.schedule_acsi (s : State) (c : CbId) (d : Clock) (p : Param) :
    (s.schedule c d p).acsi = s.acsi := rfl
@[simp] theorem State.schedule_acsiDev (s : State) (c : CbId) (d : Clock) (p : Param) :
    (s.schedule c d p).acsiDev = s.acsiDev := rfl
@[simp] theorem State.schedule_ax (s : State) (c : CbId) (d : Clock) (p : Param) :
    (s.schedule c d p).ax = s.ax := rfl
@[simp] theorem State.schedule_pins (s : State) (c : CbId) (d : Clock) (p : Param) :
    (s.schedule c d p).pins = s.pins := rfl
@[simp] theorem State.schedule_trace (s : State) (c : CbId) (d : Clock) (p : Param) :
    (s.schedule c d p).trace = s.trace := rfl
@[simp] theorem State.schedule_acsiPending (s : State) (c : CbId) (d : Clock) (p : Param) :
    (s.schedule c d p).acsiPending = s.acsiPending := rfl
@[simp] theorem State.schedule_serving (s : State) (c : CbId) (d : Clock) (p : Param) :
    (s.schedule c d p).serving = s.serving := rfl
@[simp] theorem State.schedule_portE (s : State) (c : CbId) (d : Clock) (p : Param) :
    (s.schedule c d p).portE = s.portE := rfl
@[simp] theorem State.schedule_portX (s : State) (c : CbId) (d : Clock) (p : Param) :
    (s.schedule c d p).portX = s.portX := rfl
@[simp] theorem State.schedule_picks (s : State) (c : CbId) (d : Clock) (p : Param) :
    (s.schedule c d p).picks = s.picks := rfl
@[simp] theorem State.schedule_mem (s : State) (c : CbId) (d : Clock) (p : Param) :
    (s.schedule c d p).mem = s.mem := rfl
@[simp] theorem State.schedule_disks (s : State) (c : CbId) (d : Clock) (p : Param) :
    (s.schedule c d p).disks = s.disks := rfl

/-! ### State.cancel -/

@[simp] theorem State.cancel_par (s : State) (c : CbId) : (s.cancel c).par = s.par := rfl
@[simp] theorem State.cancel_now (s : State) (c : CbId) : (s.cancel c).now = s.now := rfl
@[simp] theorem State.cancel_cfg (s : State) (c : CbId) : (s.cancel c).cfg = s.cfg := rfl
@[simp] theorem State.cancel_ag (s : State) (c : CbId) : (s.cancel c).ag = s.ag.set c none := rfl
@[simp] theorem State.cancel_disp (s : State) (c : CbId) : (s.cancel c).disp = s.disp := rfl
@[simp] theorem State.cancel_advTarget (s : State) (c : CbId) : (s.cancel c).advTarget = s.advTarget := rfl
@[simp] theorem State.cancel_fireCb (s : State) (c : CbId) : (s.cancel c).fireCb = s.fireCb := rfl
@[simp] theorem State.cancel_fireParam (s : State) (c : CbId) : (s.cancel c).fireParam = s.fireParam := rfl
@[simp] theorem State.cancel_fireTime (s : State) (c : CbId) : (s.cancel c).fireTime = s.fireTime := rfl
@[simp] theorem State.cancel_cb (s : State) (c : CbId) : (s.cancel c).cb = s.cb := rfl
@[simp] theorem State.cancel_acia (s : State) (c : CbId) : (s.cancel c).acia = s.acia := rfl
@[simp] theorem State.cancel_dma (s : State) (c : CbId) : (s.cancel c).dma = s.dma := rfl
@[simp] theorem State.cancel_fdd (s : State) (c : CbId) : (s.cancel c).fdd = s.fdd := rfl
@[simp] theorem State.cancel_lastStep (s : State) (c : CbId) : (s.cancel c).lastStep = s.lastStep := rfl
@[simp] theorem State.cancel_acsi (s : State) (c : CbId) : (s.cancel c).acsi = s.acsi := rfl
@[simp] theorem State.cancel_acsiDev (s : State) (c : CbId) : (s.cancel c).acsiDev = s.acsiDev := rfl
@[simp] theorem State.cancel_ax (s : State) (c : CbId) : (s.cancel c).ax = s.ax := rfl
@[simp] theorem State.cancel_pins (s : State) (c : CbId) : (s.cancel c).pins = s.pins := rfl
@[simp] theorem State.cancel_trace (s : State) (c : CbId) : (s.cancel c).trace = s.trace := rfl
@[simp] theorem State.cancel_acsiPending (s : State) (c : CbId) :
    (s.cancel c).acsiPending = s.acsiPending := rfl
@[simp] theorem State.cancel_serving (s : State) (c : CbId) : (s.cancel c).serving = s.serving := rfl
@[simp] theorem State.cancel_portE (s : State) (c : CbId) : (s.cancel c).portE = s.portE := rfl
@[simp] theorem State.cancel_portX (s : State) (c : CbId) : (s.cancel c).portX = s.portX := rfl
@[simp] theorem State.cancel_picks (s : State) (c : CbId) : (s.cancel c).picks = s.picks := rfl
@[simp] theorem State.cancel_mem (s : State) (c : CbId) : (s.cancel c).mem = s.mem := rfl
@[simp] theorem State.cancel_disks (s : State) (c : CbId) : (s.cancel c).disks = s.disks := rfl

/-! ### State.setPin -/

@[simp] theorem State.setPin_par (s : State) (l : IrqLine) (v : Bool) :
    (s.setPin l v).par = s.par := by unfold State.setPin; split <;> rfl
@[simp] theorem State.setPin_now (s : State) (l : IrqLine) (v : Bool) :
    (s.setPin l v).now = s.now := by unfold State.setPin; split <;> rfl
@[simp] theorem State.setPin_cfg (s : State) (l : IrqLine) (v : Bool) :
    (s.setPin l v).cfg = s.cfg := by unfold State.setPin; split <;> rfl
@[simp] theorem State.setPin_ag (s : State) (l : IrqLine) (v : Bool) :
    (s.setPin l v).ag = s.ag := by unfold State.setPin; split <;> rfl
@[simp] theorem State.setPin_disp (s : State) (l : IrqLine) (v : Bool) :
    (s.setPin l v).disp = s.disp := by unfold State.setPin; split <;> rfl
@[simp] theorem State.setPin_advTarget (s : State) (l : IrqLine) (v : Bool) :
    (s.setPin l v).advTarget = s.advTarget := by unfold State.setPin; split <;> rfl
@[simp] theorem State.setPin_fireCb (s : State) (l : IrqLine) (v : Bool) :
    (s.setPin l v).fireCb = s.fireCb := by unfold State.setPin; split <;> rfl
@[simp] theorem State.setPin_fireParam (s : State) (l : IrqLine) (v : Bool) :
    (s.setPin l v).fireParam = s.fireParam := by unfold State.setPin; split <;> rfl
@[simp] theorem State.setPin_fireTime (s : State) (l : IrqLine) (v : Bool) :
    (s.setPin l v).fireTime = s.fireTime := by unfold State.setPin; split <;> rfl
@[simp] theorem State.setPin_cb (s : State) (l : IrqLine) (v : Bool) :
    (s.setPin l v).cb = s.cb := by unfold State.setPin; split <;> rfl
@[simp] theorem State.setPin_acia (s : State) (l : IrqLine) (v : Bool) :
    (s.setPin l v).acia = s.acia := by unfold State.setPin; split <;> rfl
@[simp] theorem State.setPin_dma (s : State) (l : IrqLine) (v : Bool) :
    (s.setPin l v).dma = s.dma := by unfold State.setPin; split <;> rfl
@[simp] theorem State.setPin_fdd (s : State) (l : IrqLine) (v : Bool) :
    (s.setPin l v).fdd = s.fdd := by unfold State.setPin; split <;> rfl
@[simp] theorem State.setPin_lastStep (s : State) (l : IrqLine) (v : Bool) :
    (s.setPin l v).lastStep = s.lastStep := by unfold State.setPin; split <;> rfl
@[simp] theorem State.setPin_acsi (s : State) (l : IrqLine) (v : Bool) :
    (s.setPin l v).acsi = s.acsi := by unfold State.setPin; split <;> rfl
@[simp] theorem State.setPin_acsiDev (s : State) (l : IrqLine) (v : Bool) :
    (s.setPin l v).acsiDev = s.acsiDev := by unfold State.setPin; split <;> rfl
@[simp] theorem State.setPin_ax (s : State) (l : IrqLine) (v : Bool) :
    (s.setPin l v).ax = s.ax := by unfold State.setPin; split <;> rfl
@[simp] theorem State.setPin_acsiPending (s : State) (l : IrqLine) (v : Bool) :
    (s.setPin l v).acsiPending = s.acsiPending := by unfold State.setPin; split <;> rfl
@[simp] theorem State.setPin_serving (s : State) (l : IrqLine) (v : Bool) :
    (s.setPin l v).serving = s.serving := by unfold State.setPin; split <;> rfl
@[simp] theorem State.setPin_portE (s : State) (l : IrqLine) (v : Bool) :
    (s.setPin l v).portE = s.portE := by unfold State.setPin; split <;> rfl
@[simp] theorem State.setPin_portX (s : State) (l : IrqLine) (v : Bool) :
    (s.setPin l v).portX = s.portX := by unfold State.setPin; split <;> rfl
@[simp] theorem State.setPin_picks (s : State) (l : IrqLine) (v : Bool) :
    (s.setPin l v).picks = s.picks := by unfold State.setPin; split <;> rfl
@[simp] theorem State.setPin_mem (s : State) (l : IrqLine) (v : Bool) :
    (s.setPin l v).mem = s.mem := by unfold State.setPin; split <;> rfl
@[simp] theorem State.setPin_disks (s : State) (l : IrqLine) (v : Bool) :
    (s.setPin l v).disks = s.disks := by unfold State.setPin; split <;> rfl

/-! ### refuse -/

@[simp] theorem refuse_par (e : ErrCode) (s : State) : (refuse e s).par = s.par := by simp [refuse]
@[simp] theorem refuse_now (e : ErrCode) (s : State) : (refuse e s).now = s.now := by simp [refuse]
@[simp] theorem refuse_cfg (e : ErrCode) (s : State) : (refuse e s).cfg = s.cfg := by simp [refuse]
@[simp] theorem refuse_ag (e : ErrCode) (s : State) : (refuse e s).ag = s.ag := by simp [refuse]
@[simp] theorem refuse_disp (e : ErrCode) (s : State) : (refuse e s).disp = s.disp := by simp [refuse]
@[simp] theorem refuse_advTarget (e : ErrCode) (s : State) : (refuse e s).advTarget = s.advTarget := by simp [refuse]
@[simp] theorem refuse_fireCb (e : ErrCode) (s : State) : (refuse e s).fireCb = s.fireCb := by simp [refuse]
@[simp] theorem refuse_fireParam (e : ErrCode) (s : State) : (refuse e s).fireParam = s.fireParam := by simp [refuse]
@[simp] theorem refuse_fireTime (e : ErrCode) (s : State) : (refuse e s).fireTime = s.fireTime := by simp [refuse]
@[simp] theorem refuse_cb (e : ErrCode) (s : State) : (refuse e s).cb = s.cb := by simp [refuse]
@[simp] theorem refuse_acia (e : ErrCode) (s : State) : (refuse e s).acia = s.acia := by simp [refuse]
@[simp] theorem refuse_dma (e : ErrCode) (s : State) : (refuse e s).dma = s.dma := by simp [refuse]
@[simp] theorem refuse_fdd (e : ErrCode) (s : State) : (refuse e s).fdd = s.fdd := by simp [refuse]
@[simp] theorem refuse_lastStep (e : ErrCode) (s : State) : (refuse e s).lastStep = s.lastStep := by simp [refuse]
@[simp] theorem refuse_acsi (e : ErrCode) (s : State) : (refuse e s).acsi = s.acsi := by simp [refuse]
@[simp] theorem refuse_acsiDev (e : ErrCode) (s : State) : (refuse e s).acsiDev = s.acsiDev := by simp [refuse]
@[simp] theorem refuse_ax (e : ErrCode) (s : State) : (refuse e s).ax = s.ax := by simp [refuse]
@[simp] theorem refuse_pins (e : ErrCode) (s : State) : (refuse e s).pins = s.pins := by simp [refuse]
@[simp] theorem refuse_trace (e : ErrCode) (s : State) : (refuse e s).trace = s.trace := by simp [refuse]
@[simp] theorem refuse_acsiPending (e : ErrCode) (s : State) :
    (refuse e s).acsiPending = s.acsiPending := by simp [refuse]
@[simp] theorem refuse_serving (e : ErrCode) (s : State) : (refuse e s).serving = s.serving := by simp [refuse]
@[simp] theorem refuse_picks (e : ErrCode) (s : State) : (refuse e s).picks = s.picks := by simp [refuse]
@[simp] theorem refuse_mem (e : ErrCode) (s : State) : (refuse e s).mem = s.mem := by simp [refuse]
@[simp] theorem refuse_disks (e : ErrCode) (s : State) : (refuse e s).disks = s.disks := by simp [refuse]

/-! ### State.modAcia -/

@[simp] theorem State.modAcia_par (s : State) (i : Fin 2) (f : Acia → Acia) : (s.modAcia i f).par = s.par := rfl
@[simp] theorem State.modAcia_now (s : State) (i : Fin 2) (f : Acia → Acia) : (s.modAcia i f).now = s.now := rfl
@[simp] theorem State.modAcia_cfg (s : State) (i : Fin 2) (f : Acia → Acia) : (s.modAcia i f).cfg = s.cfg := rfl
@[simp] theorem State.modAcia_ag (s : State) (i : Fin 2) (f : Acia → Acia) : (s.modAcia i f).ag = s.ag := rfl
@[simp] theorem State.modAcia_disp (s : State) (i : Fin 2) (f : Acia → Acia) : (s.modAcia i f).disp = s.disp := rfl
@[simp] theorem State.modAcia_advTarget (s : State) (i : Fin 2) (f : Acia → Acia) :
    (s.modAcia i f).advTarget = s.advTarget := rfl
@[simp] theorem State.modAcia_fireCb (s : State) (i : Fin 2) (f : Acia → Acia) :
    (s.modAcia i f).fireCb = s.fireCb := rfl
@[simp] theorem State.modAcia_fireParam (s : State) (i : Fin 2) (f : Acia → Acia) :
    (s.modAcia i f).fireParam = s.fireParam := rfl
@[simp] theorem State.modAcia_fireTime (s : State) (i : Fin 2) (f : Acia → Acia) :
    (s.modAcia i f).fireTime = s.fireTime := rfl
@[simp] theorem State.modAcia_cb (s : State) (i : Fin 2) (f : Acia → Acia) : (s.modAcia i f).cb = s.cb := rfl
@[simp] theorem State.modAcia_acia (s : State) (i : Fin 2) (f : Acia → Acia) :
    (s.modAcia i f).acia = s.acia.set i (f s.acia[i]) := rfl
@[simp] theorem State.modAcia_dma (s : State) (i : Fin 2) (f : Acia → Acia) : (s.modAcia i f).dma = s.dma := rfl
@[simp] theorem State.modAcia_fdd (s : State) (i : Fin 2) (f : Acia → Acia) : (s.modAcia i f).fdd = s.fdd := rfl
@[simp] theorem State.modAcia_lastStep (s : State) (i : Fin 2) (f : Acia → Acia) :
    (s.modAcia i f).lastStep = s.lastStep := rfl
@[simp] theorem State.modAcia_acsi (s : State) (i : Fin 2) (f : Acia → Acia) : (s.modAcia i f).acsi = s.acsi := rfl
@[simp] theorem State.modAcia_acsiDev (s : State) (i : Fin 2) (f : Acia → Acia) :
    (s.modAcia i f).acsiDev = s.acsiDev := rfl
@[simp] theorem State.modAcia_ax (s : State) (i : Fin 2) (f : Acia → Acia) : (s.modAcia i f).ax = s.ax := rfl
@[simp] theorem State.modAcia_pins (s : State) (i : Fin 2) (f : Acia → Acia) : (s.modAcia i f).pins = s.pins := rfl
@[simp] theorem State.modAcia_trace (s : State) (i : Fin 2) (f : Acia → Acia) : (s.modAcia i f).trace = s.trace := rfl
@[simp] theorem State.modAcia_acsiPending (s : State) (i : Fin 2) (f : Acia → Acia) :
    (s.modAcia i f).acsiPending = s.acsiPending := rfl
@[simp] theorem State.modAcia_serving (s : State) (i : Fin 2) (f : Acia → Acia) :
    (s.modAcia i f).serving = s.serving := rfl
@[simp] theorem State.modAcia_portE (s : State) (i : Fin 2) (f : Acia → Acia) : (s.modAcia i f).portE = s.portE := rfl
@[simp] theorem State.modAcia_portX (s : State) (i : Fin 2) (f : Acia → Acia) : (s.modAcia i f).portX = s.portX := rfl
@[simp] theorem State.modAcia_picks (s : State) (i : Fin 2) (f : Acia → Acia) : (s.modAcia i f).picks = s.picks := rfl
@[simp] theorem State.modAcia_mem (s : State) (i : Fin 2) (f : Acia → Acia) : (s.modAcia i f).mem = s.mem := rfl
@[simp] theorem State.modAcia_disks (s : State) (i : Fin 2) (f : Acia → Acia) : (s.modAcia i f).disks = s.disks := rfl

/-! ### State.modDma -/

@[simp] theorem State.modDma_par (s : State) (f : Dma → Dma) : (s.modDma f).par = s.par := rfl
@[simp] theorem State.modDma_now (s : State) (f : Dma → Dma) : (s.modDma f).now = s.now := rfl
@[simp] theorem State.modDma_cfg (s : State) (f : Dma → Dma) : (s.modDma f).cfg = s.cfg := rfl
@[simp] theorem State.modDma_ag (s : State) (f : Dma → Dma) : (s.modDma f).ag = s.ag := rfl
@[simp] theorem State.modDma_disp (s : State) (f : Dma → Dma) : (s.modDma f).disp = s.disp := rfl
@[simp] theorem State.modDma_advTarget (s : State) (f : Dma → Dma) : (s.modDma f).advTarget = s.advTarget := rfl
@[simp] theorem State.modDma_fireCb (s : State) (f : Dma → Dma) : (s.modDma f).fireCb = s.fireCb := rfl
@[simp] theorem State.modDma_fireParam (s : State) (f : Dma → Dma) : (s.modDma f).fireParam = s.fireParam := rfl
@[simp] theorem State.modDma_fireTime (s : State) (f : Dma → Dma) : (s.modDma f).fireTime = s.fireTime := rfl
@[simp] theorem State.modDma_cb (s : State) (f : Dma → Dma) : (s.modDma f).cb = s.cb := rfl
@[simp] theorem State.modDma_acia (s : State) (f : Dma → Dma) : (s.modDma f).acia = s.acia := rfl
@[simp] theorem State.modDma_dma (s : State) (f : Dma → Dma) : (s.modDma f).dma = f s.dma := rfl
@[simp] theorem State.modDma_fdd (s : State) (f : Dma → Dma) : (s.modDma f).fdd = s.fdd := rfl
@[simp] theorem State.modDma_lastStep (s : State) (f : Dma → Dma) : (s.modDma f).lastStep = s.lastStep := rfl
@[simp] theorem State.modDma_acsi (s : State) (f : Dma → Dma) : (s.modDma f).acsi = s.acsi := rfl
@[simp] theorem State.modDma_acsiDev (s : State) (f : Dma → Dma) : (s.modDma f).acsiDev = s.acsiDev := rfl
@[simp] theorem State.modDma_ax (s : State) (f : Dma → Dma) : (s.modDma f).ax = s.ax := rfl
@[simp] theorem State.modDma_pins (s : State) (f : Dma → Dma) : (s.modDma f).pins = s.pins := rfl
@[simp] theorem State.modDma_trace (s : State) (f : Dma → Dma) : (s.modDma f).trace = s.trace := rfl
@[simp] theorem State.modDma_acsiPending (s : State) (f : Dma → Dma) : (s.modDma f).acsiPending = s.acsiPending := rfl
@[simp] theorem State.modDma_serving (s : State) (f : Dma → Dma) : (s.modDma f).serving = s.serving := rfl
@[simp] theorem State.modDma_portE (s : State) (f : Dma → Dma) : (s.modDma f).portE = s.portE := rfl
@[simp] theorem State.modDma_portX (s : State) (f : Dma → Dma) : (s.modDma f).portX = s.portX := rfl
@[simp] theorem State.modDma_picks (s : State) (f : Dma → Dma) : (s.modDma f).picks = s.picks := rfl
@[simp] theorem State.modDma_mem (s : State) (f : Dma → Dma) : (s.modDma f).mem = s.mem := rfl
@[simp] theorem State.modDma_disks (s : State) (f : Dma → Dma) : (s.modDma f).disks = s.disks := rfl

/-! ### State.modFdd -/

@[simp] theorem State.modFdd_par (s : State) (d : Fin 3) (f : Fdd → Fdd) : (s.modFdd d f).par = s.par := rfl
@[simp] theorem State.modFdd_now (s : State) (d : Fin 3) (f : Fdd → Fdd) : (s.modFdd d f).now = s.now := rfl
@[simp] theorem State.modFdd_cfg (s : State) (d : Fin 3) (f : Fdd → Fdd) : (s.modFdd d f).cfg = s.cfg := rfl
@[simp] theorem State.modFdd_ag (s : State) (d : Fin 3) (f : Fdd → Fdd) : (s.modFdd d f).ag = s.ag := rfl
@[simp] theorem State.modFdd_disp (s : State) (d : Fin 3) (f : Fdd → Fdd) : (s.modFdd d f).disp = s.disp := rfl
@[simp] theorem State.modFdd_advTarget (s : State) (d : Fin 3) (f : Fdd → Fdd) :
    (s.modFdd d f).advTarget = s.advTarget := rfl
@[simp] theorem State.modFdd_fireCb (s : State) (d : Fin 3) (f : Fdd → Fdd) : (s.modFdd d f).fireCb = s.fireCb := rfl
@[simp] theorem State.modFdd_fireParam (s : State) (d : Fin 3) (f : Fdd → Fdd) :
    (s.modFdd d f).fireParam = s.fireParam := rfl
@[simp] theorem State.modFdd_fireTime (s : State) (d : Fin 3) (f : Fdd → Fdd) :
    (s.modFdd d f).fireTime = s.fireTime := rfl
@[simp] theorem State.modFdd_cb (s : State) (d : Fin 3) (f : Fdd → Fdd) : (s.modFdd d f).cb = s.cb := rfl
@[simp] theorem State.modFdd_acia (s : State) (d : Fin 3) (f : Fdd → Fdd) : (s.modFdd d f).acia = s.acia := rfl
@[simp] theorem State.modFdd_dma (s : State) (d : Fin 3) (f : Fdd → Fdd) : (s.modFdd d f).dma = s.dma := rfl
@[simp] theorem State.modFdd_fdd (s : State) (d : Fin 3) (f : Fdd → Fdd) :
    (s.modFdd d f).fdd = s.fdd.set d (f s.fdd[d]) := rfl
@[simp] theorem State.modFdd_lastStep (s : State) (d : Fin 3) (f : Fdd → Fdd) :
    (s.modFdd d f).lastStep = s.lastStep := rfl
@[simp] theorem State.modFdd_acsi (s : State) (d : Fin 3) (f : Fdd → Fdd) : (s.modFdd d f).acsi = s.acsi := rfl
@[simp] theorem State.modFdd_acsiDev (s : State) (d : Fin 3) (f : Fdd → Fdd) : (s.modFdd d f).acsiDev = s.acsiDev := rfl
@[simp] theorem State.modFdd_ax (s : State) (d : Fin 3) (f : Fdd → Fdd) : (s.modFdd d f).ax = s.ax := rfl
@[simp] theorem State.modFdd_pins (s : State) (d : Fin 3) (f : Fdd → Fdd) : (s.modFdd d f).pins = s.pins := rfl
@[simp] theorem State.modFdd_trace (s : State) (d : Fin 3) (f : Fdd → Fdd) : (s.modFdd d f).trace = s.trace := rfl
@[simp] theorem State.modFdd_acsiPending (s : State) (d : Fin 3) (f : Fdd → Fdd) :
    (s.modFdd d f).acsiPending = s.acsiPending := rfl
@[simp] theorem State.modFdd_serving (s : State) (d : Fin 3) (f : Fdd → Fdd) : (s.modFdd d f).serving = s.serving := rfl
@[simp] theorem State.modFdd_portE (s : State) (d : Fin 3) (f : Fdd → Fdd) : (s.modFdd d f).portE = s.portE := rfl
@[simp] theorem State.modFdd_portX (s : State) (d : Fin 3) (f : Fdd → Fdd) : (s.modFdd d f).portX = s.portX := rfl
@[simp] theorem State.modFdd_picks (s : State) (d : Fin 3) (f : Fdd → Fdd) : (s.modFdd d f).picks = s.picks := rfl
@[simp] theorem State.modFdd_mem (s : State) (d : Fin 3) (f : Fdd → Fdd) : (s.modFdd d f).mem = s.mem := rfl
@[simp] theorem State.modFdd_disks (s : State) (d : Fin 3) (f : Fdd → Fdd) : (s.modFdd d f).disks = s.disks := rfl

/-! ### State.modAcsi -/

@[simp] theorem State.modAcsi_par (s : State) (k : Dev) (f : AcsiDev → AcsiDev) :
    (s.modAcsi k f).par = s.par := rfl
@[simp] theorem State.modAcsi_now (s : State) (k : Dev) (f : AcsiDev → AcsiDev) :
    (s.modAcsi k f).now = s.now := rfl
@[simp] theorem State.modAcsi_cfg (s : State) (k : Dev) (f : AcsiDev → AcsiDev) :
    (s.modAcsi k f).cfg = s.cfg := rfl
@[simp] theorem State.modAcsi_ag (s : State) (k : Dev) (f : AcsiDev → AcsiDev) :
    (s.modAcsi k f).ag = s.ag := rfl
@[simp] theorem State.modAcsi_disp (s : State) (k : Dev) (f : AcsiDev → AcsiDev) :
    (s.modAcsi k f).disp = s.disp := rfl
@[simp] theorem State.modAcsi_advTarget (s : State) (k : Dev) (f : AcsiDev → AcsiDev) :
    (s.modAcsi k f).advTarget = s.advTarget := rfl
@[simp] theorem State.modAcsi_fireCb (s : State) (k : Dev) (f : AcsiDev → AcsiDev) :
    (s.modAcsi k f).fireCb = s.fireCb := rfl
@[simp] theorem State.modAcsi_fireParam (s : State) (k : Dev) (f : AcsiDev → AcsiDev) :
    (s.modAcsi k f).fireParam = s.fireParam := rfl
@[simp] theorem State.modAcsi_fireTime (s : State) (k : Dev) (f : AcsiDev → AcsiDev) :
    (s.modAcsi k f).fireTime = s.fireTime := rfl
@[simp] theorem State.modAcsi_cb (s : State) (k : Dev) (f : AcsiDev → AcsiDev) :
    (s.modAcsi k f).cb = s.cb := rfl
@[simp] theorem State.modAcsi_acia (s : State) (k : Dev) (f : AcsiDev → AcsiDev) :
    (s.modAcsi k f).acia = s.acia := rfl
@[simp] theorem State.modAcsi_dma (s : State) (k : Dev) (f : AcsiDev → AcsiDev) :
    (s.modAcsi k f).dma = s.dma := rfl
@[simp] theorem State.modAcsi_fdd (s : State) (k : Dev) (f : AcsiDev → AcsiDev) :
    (s.modAcsi k f).fdd = s.fdd := rfl
@[simp] theorem State.modAcsi_lastStep (s : State) (k : Dev) (f : AcsiDev → AcsiDev) :
    (s.modAcsi k f).lastStep = s.lastStep := rfl
@[simp] theorem State.modAcsi_acsi (s : State) (k : Dev) (f : AcsiDev → AcsiDev) :
    (s.modAcsi k f).acsi = s.acsi.set k (f s.acsi[k]) := rfl
@[simp] theorem State.modAcsi_acsiDev (s : State) (k : Dev) (f : AcsiDev → AcsiDev) :
    (s.modAcsi k f).acsiDev = s.acsiDev := rfl
@[simp] theorem State.modAcsi_ax (s : State) (k : Dev) (f : AcsiDev → AcsiDev) :
    (s.modAcsi k f).ax = s.ax := rfl
@[simp] theorem State.modAcsi_pins (s : State) (k : Dev) (f : AcsiDev → AcsiDev) :
    (s.modAcsi k f).pins = s.pins := rfl
@[simp] theorem State.modAcsi_trace (s : State) (k : Dev) (f : AcsiDev → AcsiDev) :
    (s.modAcsi k f).trace = s.trace := rfl
@[simp] theorem State.modAcsi_acsiPending (s : State) (k : Dev) (f : AcsiDev → AcsiDev) :
    (s.modAcsi k f).acsiPending = s.acsiPending := rfl
@[simp] theorem State.modAcsi_serving (s : State) (k : Dev) (f : AcsiDev → AcsiDev) :
    (s.modAcsi k f).serving = s.serving := rfl
@[simp] theorem State.modAcsi_portE (s : State) (k : Dev) (f : AcsiDev → AcsiDev) :
    (s.modAcsi k f).portE = s.portE := rfl
@[simp] theorem State.modAcsi_portX (s : State) (k : Dev) (f : AcsiDev → AcsiDev) :
    (s.modAcsi k f).portX = s.portX := rfl
@[simp] theorem State.modAcsi_picks (s : State) (k : Dev) (f : AcsiDev → AcsiDev) :
    (s.modAcsi k f).picks = s.picks := rfl
@[simp] theorem State.modAcsi_mem (s : State) (k : Dev) (f : AcsiDev → AcsiDev) :
    (s.modAcsi k f).mem = s.mem := rfl
@[simp] theorem State.modAcsi_disks (s : State) (k : Dev) (f : AcsiDev → AcsiDev) :
    (s.modAcsi k f).disks = s.disks := rfl

/-! ### memWrite -/

@[simp] theorem memWrite_par (a : Addr) (v : Vector Byte 16) (s : State) : (memWrite a v s).par = s.par := rfl
@[simp] theorem memWrite_now (a : Addr) (v : Vector Byte 16) (s : State) : (memWrite a v s).now = s.now := rfl
@[simp] theorem memWrite_cfg (a : Addr) (v : Vector Byte 16) (s : State) : (memWrite a v s).cfg = s.cfg := rfl
@[simp] theorem memWrite_ag (a : Addr) (v : Vector Byte 16) (s : State) : (memWrite a v s).ag = s.ag := rfl
@[simp] theorem memWrite_disp (a : Addr) (v : Vector Byte 16) (s : State) : (memWrite a v s).disp = s.disp := rfl
@[simp] theorem memWrite_advTarget (a : Addr) (v : Vector Byte 16) (s : State) :
    (memWrite a v s).advTarget = s.advTarget := rfl
@[simp] theorem memWrite_fireCb (a : Addr) (v : Vector Byte 16) (s : State) : (memWrite a v s).fireCb = s.fireCb := rfl
@[simp] theorem memWrite_fireParam (a : Addr) (v : Vector Byte 16) (s : State) :
    (memWrite a v s).fireParam = s.fireParam := rfl
@[simp] theorem memWrite_fireTime (a : Addr) (v : Vector Byte 16) (s : State) :
    (memWrite a v s).fireTime = s.fireTime := rfl
@[simp] theorem memWrite_cb (a : Addr) (v : Vector Byte 16) (s : State) : (memWrite a v s).cb = s.cb := rfl
@[simp] theorem memWrite_acia (a : Addr) (v : Vector Byte 16) (s : State) : (memWrite a v s).acia = s.acia := rfl
@[simp] theorem memWrite_dma (a : Addr) (v : Vector Byte 16) (s : State) : (memWrite a v s).dma = s.dma := rfl
@[simp] theorem memWrite_fdd (a : Addr) (v : Vector Byte 16) (s : State) : (memWrite a v s).fdd = s.fdd := rfl
@[simp] theorem memWrite_lastStep (a : Addr) (v : Vector Byte 16) (s : State) :
    (memWrite a v s).lastStep = s.lastStep := rfl
@[simp] theorem memWrite_acsi (a : Addr) (v : Vector Byte 16) (s : State) : (memWrite a v s).acsi = s.acsi := rfl
@[simp] theorem memWrite_acsiDev (a : Addr) (v : Vector Byte 16) (s : State) :
    (memWrite a v s).acsiDev = s.acsiDev := rfl
@[simp] theorem memWrite_ax (a : Addr) (v : Vector Byte 16) (s : State) : (memWrite a v s).ax = s.ax := rfl
@[simp] theorem memWrite_pins (a : Addr) (v : Vector Byte 16) (s : State) : (memWrite a v s).pins = s.pins := rfl
@[simp] theorem memWrite_trace (a : Addr) (v : Vector Byte 16) (s : State) :
    (memWrite a v s).trace = s.trace ++ portEvents s.par .memw a v.toList := rfl
@[simp] theorem memWrite_acsiPending (a : Addr) (v : Vector Byte 16) (s : State) :
    (memWrite a v s).acsiPending = s.acsiPending := rfl
@[simp] theorem memWrite_serving (a : Addr) (v : Vector Byte 16) (s : State) :
    (memWrite a v s).serving = s.serving := rfl
@[simp] theorem memWrite_portE (a : Addr) (v : Vector Byte 16) (s : State) : (memWrite a v s).portE = s.portE := rfl
@[simp] theorem memWrite_portX (a : Addr) (v : Vector Byte 16) (s : State) : (memWrite a v s).portX = s.portX := rfl
@[simp] theorem memWrite_picks (a : Addr) (v : Vector Byte 16) (s : State) : (memWrite a v s).picks = s.picks := rfl
@[simp] theorem memWrite_mem (a : Addr) (v : Vector Byte 16) (s : State) :
    (memWrite a v s).mem = Memory.writeBytes s.par s.mem a v.toList := rfl
@[simp] theorem memWrite_disks (a : Addr) (v : Vector Byte 16) (s : State) : (memWrite a v s).disks = s.disks := rfl

/-! ### memReadEvents -/

@[simp] theorem memReadEvents_par (a : Addr) (s : State) : (memReadEvents a s).par = s.par := rfl
@[simp] theorem memReadEvents_now (a : Addr) (s : State) : (memReadEvents a s).now = s.now := rfl
@[simp] theorem memReadEvents_cfg (a : Addr) (s : State) : (memReadEvents a s).cfg = s.cfg := rfl
@[simp] theorem memReadEvents_ag (a : Addr) (s : State) : (memReadEvents a s).ag = s.ag := rfl
@[simp] theorem memReadEvents_disp (a : Addr) (s : State) : (memReadEvents a s).disp = s.disp := rfl
@[simp] theorem memReadEvents_advTarget (a : Addr) (s : State) : (memReadEvents a s).advTarget = s.advTarget := rfl
@[simp] theorem memReadEvents_fireCb (a : Addr) (s : State) : (memReadEvents a s).fireCb = s.fireCb := rfl
@[simp] theorem memReadEvents_fireParam (a : Addr) (s : State) : (memReadEvents a s).fireParam = s.fireParam := rfl
@[simp] theorem memReadEvents_fireTime (a : Addr) (s : State) : (memReadEvents a s).fireTime = s.fireTime := rfl
@[simp] theorem memReadEvents_cb (a : Addr) (s : State) : (memReadEvents a s).cb = s.cb := rfl
@[simp] theorem memReadEvents_acia (a : Addr) (s : State) : (memReadEvents a s).acia = s.acia := rfl
@[simp] theorem memReadEvents_dma (a : Addr) (s : State) : (memReadEvents a s).dma = s.dma := rfl
@[simp] theorem memReadEvents_fdd (a : Addr) (s : State) : (memReadEvents a s).fdd = s.fdd := rfl
@[simp] theorem memReadEvents_lastStep (a : Addr) (s : State) : (memReadEvents a s).lastStep = s.lastStep := rfl
@[simp] theorem memReadEvents_acsi (a : Addr) (s : State) : (memReadEvents a s).acsi = s.acsi := rfl
@[simp] theorem memReadEvents_acsiDev (a : Addr) (s : State) : (memReadEvents a s).acsiDev = s.acsiDev := rfl
@[simp] theorem memReadEvents_ax (a : Addr) (s : State) : (memReadEvents a s).ax = s.ax := rfl
@[simp] theorem memReadEvents_pins (a : Addr) (s : State) : (memReadEvents a s).pins = s.pins := rfl
@[simp] theorem memReadEvents_trace (a : Addr) (s : State) :
    (memReadEvents a s).trace = s.trace ++ portEvents s.par .memr a (Memory.half s.par s.mem a).toList := rfl
@[simp] theorem memReadEvents_acsiPending (a : Addr) (s : State) :
    (memReadEvents a s).acsiPending = s.acsiPending := rfl
@[simp] theorem memReadEvents_serving (a : Addr) (s : State) : (memReadEvents a s).serving = s.serving := rfl
@[simp] theorem memReadEvents_portE (a : Addr) (s : State) : (memReadEvents a s).portE = s.portE := rfl
@[simp] theorem memReadEvents_portX (a : Addr) (s : State) : (memReadEvents a s).portX = s.portX := rfl
@[simp] theorem memReadEvents_picks (a : Addr) (s : State) : (memReadEvents a s).picks = s.picks := rfl
@[simp] theorem memReadEvents_mem (a : Addr) (s : State) : (memReadEvents a s).mem = s.mem := rfl
@[simp] theorem memReadEvents_disks (a : Addr) (s : State) : (memReadEvents a s).disks = s.disks := rfl

/-! ### popFail -/

@[simp] theorem popFail_par (s : State) : (popFail s).par = s.par := rfl
@[simp] theorem popFail_now (s : State) : (popFail s).now = s.now := rfl
@[simp] theorem popFail_cfg (s : State) : (popFail s).cfg = s.cfg := rfl
@[simp] theorem popFail_ag (s : State) : (popFail s).ag = s.ag := rfl
@[simp] theorem popFail_disp (s : State) : (popFail s).disp = s.disp := rfl
@[simp] theorem popFail_advTarget (s : State) : (popFail s).advTarget = s.advTarget := rfl
@[simp] theorem popFail_fireCb (s : State) : (popFail s).fireCb = s.fireCb := rfl
@[simp] theorem popFail_fireParam (s : State) : (popFail s).fireParam = s.fireParam := rfl
@[simp] theorem popFail_fireTime (s : State) : (popFail s).fireTime = s.fireTime := rfl
@[simp] theorem popFail_cb (s : State) : (popFail s).cb = s.cb := rfl
@[simp] theorem popFail_acia (s : State) : (popFail s).acia = s.acia := rfl
@[simp] theorem popFail_dma (s : State) : (popFail s).dma = s.dma := rfl
@[simp] theorem popFail_fdd (s : State) : (popFail s).fdd = s.fdd := rfl
@[simp] theorem popFail_lastStep (s : State) : (popFail s).lastStep = s.lastStep := rfl
@[simp] theorem popFail_acsi (s : State) : (popFail s).acsi = s.acsi := rfl
@[simp] theorem popFail_acsiDev (s : State) : (popFail s).acsiDev = s.acsiDev := rfl
@[simp] theorem popFail_ax (s : State) : (popFail s).ax = s.ax := rfl
@[simp] theorem popFail_pins (s : State) : (popFail s).pins = s.pins := rfl
@[simp] theorem popFail_trace (s : State) : (popFail s).trace = s.trace := rfl
@[simp] theorem popFail_acsiPending (s : State) : (popFail s).acsiPending = s.acsiPending := rfl
@[simp] theorem popFail_serving (s : State) : (popFail s).serving = s.serving := rfl
@[simp] theorem popFail_portE (s : State) : (popFail s).portE = s.portE := rfl
@[simp] theorem popFail_portX (s : State) : (popFail s).portX = s.portX := rfl
@[simp] theorem popFail_picks (s : State) : (popFail s).picks = s.picks := rfl
@[simp] theorem popFail_mem (s : State) : (popFail s).mem = s.mem := rfl
@[simp] theorem popFail_disks (s : State) : (popFail s).disks = { s.disks with ioFail := s.disks.ioFail.tail } := rfl

/-! ### putImage -/

@[simp] theorem putImage_par (h : Handle) (n : Sector) (b : List Byte) (s : State) :
    (putImage h n b s).par = s.par := rfl
@[simp] theorem putImage_now (h : Handle) (n : Sector) (b : List Byte) (s : State) :
    (putImage h n b s).now = s.now := rfl
@[simp] theorem putImage_cfg (h : Handle) (n : Sector) (b : List Byte) (s : State) :
    (putImage h n b s).cfg = s.cfg := rfl
@[simp] theorem putImage_ag (h : Handle) (n : Sector) (b : List Byte) (s : State) : (putImage h n b s).ag = s.ag := rfl
@[simp] theorem putImage_disp (h : Handle) (n : Sector) (b : List Byte) (s : State) :
    (putImage h n b s).disp = s.disp := rfl
@[simp] theorem putImage_advTarget (h : Handle) (n : Sector) (b : List Byte) (s : State) :
    (putImage h n b s).advTarget = s.advTarget := rfl
@[simp] theorem putImage_fireCb (h : Handle) (n : Sector) (b : List Byte) (s : State) :
    (putImage h n b s).fireCb = s.fireCb := rfl
@[simp] theorem putImage_fireParam (h : Handle) (n : Sector) (b : List Byte) (s : State) :
    (putImage h n b s).fireParam = s.fireParam := rfl
@[simp] theorem putImage_fireTime (h : Handle) (n : Sector) (b : List Byte) (s : State) :
    (putImage h n b s).fireTime = s.fireTime := rfl
@[simp] theorem putImage_cb (h : Handle) (n : Sector) (b : List Byte) (s : State) : (putImage h n b s).cb = s.cb := rfl
@[simp] theorem putImage_acia (h : Handle) (n : Sector) (b : List Byte) (s : State) :
    (putImage h n b s).acia = s.acia := rfl
@[simp] theorem putImage_dma (h : Handle) (n : Sector) (b : List Byte) (s : State) :
    (putImage h n b s).dma = s.dma := rfl
@[simp] theorem putImage_fdd (h : Handle) (n : Sector) (b : List Byte) (s : State) :
    (putImage h n b s).fdd = s.fdd := rfl
@[simp] theorem putImage_lastStep (h : Handle) (n : Sector) (b : List Byte) (s : State) :
    (putImage h n b s).lastStep = s.lastStep := rfl
@[simp] theorem putImage_acsi (h : Handle) (n : Sector) (b : List Byte) (s : State) :
    (putImage h n b s).acsi = s.acsi := rfl
@[simp] theorem putImage_acsiDev (h : Handle) (n : Sector) (b : List Byte) (s : State) :
    (putImage h n b s).acsiDev = s.acsiDev := rfl
@[simp] theorem putImage_ax (h : Handle) (n : Sector) (b : List Byte) (s : State) : (putImage h n b s).ax = s.ax := rfl
@[simp] theorem putImage_pins (h : Handle) (n : Sector) (b : List Byte) (s : State) :
    (putImage h n b s).pins = s.pins := rfl
@[simp] theorem putImage_trace (h : Handle) (n : Sector) (b : List Byte) (s : State) :
    (putImage h n b s).trace = s.trace := rfl
@[simp] theorem putImage_acsiPending (h : Handle) (n : Sector) (b : List Byte) (s : State) :
    (putImage h n b s).acsiPending = s.acsiPending := rfl
@[simp] theorem putImage_serving (h : Handle) (n : Sector) (b : List Byte) (s : State) :
    (putImage h n b s).serving = s.serving := rfl
@[simp] theorem putImage_portE (h : Handle) (n : Sector) (b : List Byte) (s : State) :
    (putImage h n b s).portE = s.portE := rfl
@[simp] theorem putImage_portX (h : Handle) (n : Sector) (b : List Byte) (s : State) :
    (putImage h n b s).portX = s.portX := rfl
@[simp] theorem putImage_picks (h : Handle) (n : Sector) (b : List Byte) (s : State) :
    (putImage h n b s).picks = s.picks := rfl
@[simp] theorem putImage_mem (h : Handle) (n : Sector) (b : List Byte) (s : State) :
    (putImage h n b s).mem = s.mem := rfl
@[simp] theorem putImage_disks (h : Handle) (n : Sector) (b : List Byte) (s : State) :
    (putImage h n b s).disks = { s.disks with image := storePut s.disks.image (sectorKey h n) b } := rfl

/-! ### putGhost -/

@[simp] theorem putGhost_par (h : Handle) (n : Sector) (b : List Byte) (s : State) :
    (putGhost h n b s).par = s.par := rfl
@[simp] theorem putGhost_now (h : Handle) (n : Sector) (b : List Byte) (s : State) :
    (putGhost h n b s).now = s.now := rfl
@[simp] theorem putGhost_cfg (h : Handle) (n : Sector) (b : List Byte) (s : State) :
    (putGhost h n b s).cfg = s.cfg := rfl
@[simp] theorem putGhost_ag (h : Handle) (n : Sector) (b : List Byte) (s : State) : (putGhost h n b s).ag = s.ag := rfl
@[simp] theorem putGhost_disp (h : Handle) (n : Sector) (b : List Byte) (s : State) :
    (putGhost h n b s).disp = s.disp := rfl
@[simp] theorem putGhost_advTarget (h : Handle) (n : Sector) (b : List Byte) (s : State) :
    (putGhost h n b s).advTarget = s.advTarget := rfl
@[simp] theorem putGhost_fireCb (h : Handle) (n : Sector) (b : List Byte) (s : State) :
    (putGhost h n b s).fireCb = s.fireCb := rfl
@[simp] theorem putGhost_fireParam (h : Handle) (n : Sector) (b : List Byte) (s : State) :
    (putGhost h n b s).fireParam = s.fireParam := rfl
@[simp] theorem putGhost_fireTime (h : Handle) (n : Sector) (b : List Byte) (s : State) :
    (putGhost h n b s).fireTime = s.fireTime := rfl
@[simp] theorem putGhost_cb (h : Handle) (n : Sector) (b : List Byte) (s : State) : (putGhost h n b s).cb = s.cb := rfl
@[simp] theorem putGhost_acia (h : Handle) (n : Sector) (b : List Byte) (s : State) :
    (putGhost h n b s).acia = s.acia := rfl
@[simp] theorem putGhost_dma (h : Handle) (n : Sector) (b : List Byte) (s : State) :
    (putGhost h n b s).dma = s.dma := rfl
@[simp] theorem putGhost_fdd (h : Handle) (n : Sector) (b : List Byte) (s : State) :
    (putGhost h n b s).fdd = s.fdd := rfl
@[simp] theorem putGhost_lastStep (h : Handle) (n : Sector) (b : List Byte) (s : State) :
    (putGhost h n b s).lastStep = s.lastStep := rfl
@[simp] theorem putGhost_acsi (h : Handle) (n : Sector) (b : List Byte) (s : State) :
    (putGhost h n b s).acsi = s.acsi := rfl
@[simp] theorem putGhost_acsiDev (h : Handle) (n : Sector) (b : List Byte) (s : State) :
    (putGhost h n b s).acsiDev = s.acsiDev := rfl
@[simp] theorem putGhost_ax (h : Handle) (n : Sector) (b : List Byte) (s : State) : (putGhost h n b s).ax = s.ax := rfl
@[simp] theorem putGhost_pins (h : Handle) (n : Sector) (b : List Byte) (s : State) :
    (putGhost h n b s).pins = s.pins := rfl
@[simp] theorem putGhost_trace (h : Handle) (n : Sector) (b : List Byte) (s : State) :
    (putGhost h n b s).trace = s.trace := rfl
@[simp] theorem putGhost_acsiPending (h : Handle) (n : Sector) (b : List Byte) (s : State) :
    (putGhost h n b s).acsiPending = s.acsiPending := rfl
@[simp] theorem putGhost_serving (h : Handle) (n : Sector) (b : List Byte) (s : State) :
    (putGhost h n b s).serving = s.serving := rfl
@[simp] theorem putGhost_portE (h : Handle) (n : Sector) (b : List Byte) (s : State) :
    (putGhost h n b s).portE = s.portE := rfl
@[simp] theorem putGhost_portX (h : Handle) (n : Sector) (b : List Byte) (s : State) :
    (putGhost h n b s).portX = s.portX := rfl
@[simp] theorem putGhost_picks (h : Handle) (n : Sector) (b : List Byte) (s : State) :
    (putGhost h n b s).picks = s.picks := rfl
@[simp] theorem putGhost_mem (h : Handle) (n : Sector) (b : List Byte) (s : State) :
    (putGhost h n b s).mem = s.mem := rfl
@[simp] theorem putGhost_disks (h : Handle) (n : Sector) (b : List Byte) (s : State) :
    (putGhost h n b s).disks = { s.disks with ghost := storePut s.disks.ghost (sectorKey h n) b } := rfl

/-! ### setCond -/

@[simp] theorem setCond_par (d : Fin 2) (v : Byte) (s : State) : (setCond d v s).par = s.par := rfl
@[simp] theorem setCond_now (d : Fin 2) (v : Byte) (s : State) : (setCond d v s).now = s.now := rfl
@[simp] theorem setCond_cfg (d : Fin 2) (v : Byte) (s : State) : (setCond d v s).cfg = s.cfg := rfl
@[simp] theorem setCond_ag (d : Fin 2) (v : Byte) (s : State) : (setCond d v s).ag = s.ag := rfl
@[simp] theorem setCond_disp (d : Fin 2) (v : Byte) (s : State) : (setCond d v s).disp = s.disp := rfl
@[simp] theorem setCond_advTarget (d : Fin 2) (v : Byte) (s : State) : (setCond d v s).advTarget = s.advTarget := rfl
@[simp] theorem setCond_fireCb (d : Fin 2) (v : Byte) (s : State) : (setCond d v s).fireCb = s.fireCb := rfl
@[simp] theorem setCond_fireParam (d : Fin 2) (v : Byte) (s : State) : (setCond d v s).fireParam = s.fireParam := rfl
@[simp] theorem setCond_fireTime (d : Fin 2) (v : Byte) (s : State) : (setCond d v s).fireTime = s.fireTime := rfl
@[simp] theorem setCond_cb (d : Fin 2) (v : Byte) (s : State) : (setCond d v s).cb = s.cb := rfl
@[simp] theorem setCond_acia (d : Fin 2) (v : Byte) (s : State) : (setCond d v s).acia = s.acia := rfl
@[simp] theorem setCond_dma (d : Fin 2) (v : Byte) (s : State) : (setCond d v s).dma = s.dma := rfl
@[simp] theorem setCond_lastStep (d : Fin 2) (v : Byte) (s : State) : (setCond d v s).lastStep = s.lastStep := rfl
@[simp] theorem setCond_acsi (d : Fin 2) (v : Byte) (s : State) : (setCond d v s).acsi = s.acsi := rfl
@[simp] theorem setCond_acsiDev (d : Fin 2) (v : Byte) (s : State) : (setCond d v s).acsiDev = s.acsiDev := rfl
@[simp] theorem setCond_ax (d : Fin 2) (v : Byte) (s : State) : (setCond d v s).ax = s.ax := rfl
@[simp] theorem setCond_pins (d : Fin 2) (v : Byte) (s : State) : (setCond d v s).pins = s.pins := rfl
@[simp] theorem setCond_trace (d : Fin 2) (v : Byte) (s : State) : (setCond d v s).trace = s.trace := rfl
@[simp] theorem setCond_acsiPending (d : Fin 2) (v : Byte) (s : State) :
    (setCond d v s).acsiPending = s.acsiPending := rfl
@[simp] theorem setCond_serving (d : Fin 2) (v : Byte) (s : State) : (setCond d v s).serving = s.serving := rfl
@[simp] theorem setCond_portE (d : Fin 2) (v : Byte) (s : State) : (setCond d v s).portE = s.portE := rfl
@[simp] theorem setCond_portX (d : Fin 2) (v : Byte) (s : State) : (setCond d v s).portX = s.portX := rfl
@[simp] theorem setCond_picks (d : Fin 2) (v : Byte) (s : State) : (setCond d v s).picks = s.picks := rfl
@[simp] theorem setCond_mem (d : Fin 2) (v : Byte) (s : State) : (setCond d v s).mem = s.mem := rfl
@[simp] theorem setCond_disks (d : Fin 2) (v : Byte) (s : State) : (setCond d v s).disks = s.disks := rfl

/-! ### dmaError -/

@[simp] theorem dmaError_par (s : State) : (dmaError s).par = s.par := rfl
@[simp] theorem dmaError_now (s : State) : (dmaError s).now = s.now := rfl
@[simp] theorem dmaError_cfg (s : State) : (dmaError s).cfg = s.cfg := rfl
@[simp] theorem dmaError_ag (s : State) : (dmaError s).ag = s.ag := rfl
@[simp] theorem dmaError_disp (s : State) : (dmaError s).disp = s.disp := rfl
@[simp] theorem dmaError_advTarget (s : State) : (dmaError s).advTarget = s.advTarget := rfl
@[simp] theorem dmaError_fireCb (s : State) : (dmaError s).fireCb = s.fireCb := rfl
@[simp] theorem dmaError_fireParam (s : State) : (dmaError s).fireParam = s.fireParam := rfl
@[simp] theorem dmaError_fireTime (s : State) : (dmaError s).fireTime = s.fireTime := rfl
@[simp] theorem dmaError_cb (s : State) : (dmaError s).cb = s.cb := rfl
@[simp] theorem dmaError_acia (s : State) : (dmaError s).acia = s.acia := rfl
@[simp] theorem dmaError_dma (s : State) : (dmaError s).dma = { s.dma with err := true } := rfl
@[simp] theorem dmaError_fdd (s : State) : (dmaError s).fdd = s.fdd := rfl
@[simp] theorem dmaError_lastStep (s : State) : (dmaError s).lastStep = s.lastStep := rfl
@[simp] theorem dmaError_acsi (s : State) : (dmaError s).acsi = s.acsi := rfl
@[simp] theorem dmaError_acsiDev (s : State) : (dmaError s).acsiDev = s.acsiDev := rfl
@[simp] theorem dmaError_ax (s : State) : (dmaError s).ax = s.ax := rfl
@[simp] theorem dmaError_pins (s : State) : (dmaError s).pins = s.pins := rfl
@[simp] theorem dmaError_trace (s : State) : (dmaError s).trace = s.trace := rfl
@[simp] theorem dmaError_acsiPending (s : State) : (dmaError s).acsiPending = s.acsiPending := rfl
@[simp] theorem dmaError_serving (s : State) : (dmaError s).serving = s.serving := rfl
@[simp] theorem dmaError_portE (s : State) : (dmaError s).portE = s.portE := rfl
@[simp] theorem dmaError_portX (s : State) : (dmaError s).portX = s.portX := rfl
@[simp] theorem dmaError_picks (s : State) : (dmaError s).picks = s.picks := rfl
@[simp] theorem dmaError_mem (s : State) : (dmaError s).mem = s.mem := rfl
@[simp] theorem dmaError_disks (s : State) : (dmaError s).disks = s.disks := rfl

/-! ### acsiReport -/

@[simp] theorem acsiReport_par (k : Dev) (st er : Byte) (s : State) :
    (acsiReport k st er s).par = s.par := rfl
@[simp] theorem acsiReport_now (k : Dev) (st er : Byte) (s : State) :
    (acsiReport k st er s).now = s.now := rfl
@[simp] theorem acsiReport_cfg (k : Dev) (st er : Byte) (s : State) :
    (acsiReport k st er s).cfg = s.cfg := rfl
@[simp] theorem acsiReport_ag (k : Dev) (st er : Byte) (s : State) :
    (acsiReport k st er s).ag = s.ag := rfl
@[simp] theorem acsiReport_disp (k : Dev) (st er : Byte) (s : State) :
    (acsiReport k st er s).disp = s.disp := rfl
@[simp] theorem acsiReport_advTarget (k : Dev) (st er : Byte) (s : State) :
    (acsiReport k st er s).advTarget = s.advTarget := rfl
@[simp] theorem acsiReport_fireCb (k : Dev) (st er : Byte) (s : State) :
    (acsiReport k st er s).fireCb = s.fireCb := rfl
@[simp] theorem acsiReport_fireParam (k : Dev) (st er : Byte) (s : State) :
    (acsiReport k st er s).fireParam = s.fireParam := rfl
@[simp] theorem acsiReport_fireTime (k : Dev) (st er : Byte) (s : State) :
    (acsiReport k st er s).fireTime = s.fireTime := rfl
@[simp] theorem acsiReport_cb (k : Dev) (st er : Byte) (s : State) :
    (acsiReport k st er s).cb = s.cb := rfl
@[simp] theorem acsiReport_acia (k : Dev) (st er : Byte) (s : State) :
    (acsiReport k st er s).acia = s.acia := rfl
@[simp] theorem acsiReport_dma (k : Dev) (st er : Byte) (s : State) :
    (acsiReport k st er s).dma = s.dma := rfl
@[simp] theorem acsiReport_fdd (k : Dev) (st er : Byte) (s : State) :
    (acsiReport k st er s).fdd = s.fdd := rfl
@[simp] theorem acsiReport_lastStep (k : Dev) (st er : Byte) (s : State) :
    (acsiReport k st er s).lastStep = s.lastStep := rfl
@[simp] theorem acsiReport_acsiDev (k : Dev) (st er : Byte) (s : State) :
    (acsiReport k st er s).acsiDev = s.acsiDev := rfl
@[simp] theorem acsiReport_ax (k : Dev) (st er : Byte) (s : State) :
    (acsiReport k st er s).ax = s.ax := rfl
@[simp] theorem acsiReport_pins (k : Dev) (st er : Byte) (s : State) :
    (acsiReport k st er s).pins = s.pins := rfl
@[simp] theorem acsiReport_trace (k : Dev) (st er : Byte) (s : State) :
    (acsiReport k st er s).trace = s.trace := rfl
@[simp] theorem acsiReport_acsiPending (k : Dev) (st er : Byte) (s : State) :
    (acsiReport k st er s).acsiPending = s.acsiPending := rfl
@[simp] theorem acsiReport_serving (k : Dev) (st er : Byte) (s : State) :
    (acsiReport k st er s).serving = s.serving := rfl
@[simp] theorem acsiReport_portE (k : Dev) (st er : Byte) (s : State) :
    (acsiReport k st er s).portE = s.portE := rfl
@[simp] theorem acsiReport_portX (k : Dev) (st er : Byte) (s : State) :
    (acsiReport k st er s).portX = s.portX := rfl
@[simp] theorem acsiReport_picks (k : Dev) (st er : Byte) (s : State) :
    (acsiReport k st er s).picks = s.picks := rfl
@[simp] theorem acsiReport_mem (k : Dev) (st er : Byte) (s : State) :
    (acsiReport k st er s).mem = s.mem := rfl
@[simp] theorem acsiReport_disks (k : Dev) (st er : Byte) (s : State) :
    (acsiReport k st er s).disks = s.disks := rfl

/-! ### acsiBegin -/

@[simp] theorem acsiBegin_par (k : Dev) (s : State) : (acsiBegin k s).par = s.par := rfl
@[simp] theorem acsiBegin_now (k : Dev) (s : State) : (acsiBegin k s).now = s.now := rfl
@[simp] theorem acsiBegin_cfg (k : Dev) (s : State) : (acsiBegin k s).cfg = s.cfg := rfl
@[simp] theorem acsiBegin_ag (k : Dev) (s : State) : (acsiBegin k s).ag = s.ag := rfl
@[simp] theorem acsiBegin_disp (k : Dev) (s : State) : (acsiBegin k s).disp = s.disp := rfl
@[simp] theorem acsiBegin_advTarget (k : Dev) (s : State) :
    (acsiBegin k s).advTarget = s.advTarget := rfl
@[simp] theorem acsiBegin_fireCb (k : Dev) (s : State) : (acsiBegin k s).fireCb = s.fireCb := rfl
@[simp] theorem acsiBegin_fireParam (k : Dev) (s : State) :
    (acsiBegin k s).fireParam = s.fireParam := rfl
@[simp] theorem acsiBegin_fireTime (k : Dev) (s : State) : (acsiBegin k s).fireTime = s.fireTime := rfl
@[simp] theorem acsiBegin_cb (k : Dev) (s : State) : (acsiBegin k s).cb = s.cb := rfl
@[simp] theorem acsiBegin_acia (k : Dev) (s : State) : (acsiBegin k s).acia = s.acia := rfl
@[simp] theorem acsiBegin_dma (k : Dev) (s : State) : (acsiBegin k s).dma = s.dma := rfl
@[simp] theorem acsiBegin_fdd (k : Dev) (s : State) : (acsiBegin k s).fdd = s.fdd := rfl
@[simp] theorem acsiBegin_lastStep (k : Dev) (s : State) : (acsiBegin k s).lastStep = s.lastStep := rfl
@[simp] theorem acsiBegin_acsiDev (k : Dev) (s : State) : (acsiBegin k s).acsiDev = s.acsiDev := rfl
@[simp] theorem acsiBegin_ax (k : Dev) (s : State) : (acsiBegin k s).ax = s.ax := rfl
@[simp] theorem acsiBegin_pins (k : Dev) (s : State) : (acsiBegin k s).pins = s.pins := rfl
@[simp] theorem acsiBegin_trace (k : Dev) (s : State) : (acsiBegin k s).trace = s.trace := rfl
@[simp] theorem acsiBegin_acsiPending (k : Dev) (s : State) :
    (acsiBegin k s).acsiPending = s.acsiPending := rfl
@[simp] theorem acsiBegin_serving (k : Dev) (s : State) : (acsiBegin k s).serving = s.serving := rfl
@[simp] theorem acsiBegin_portE (k : Dev) (s : State) : (acsiBegin k s).portE = s.portE := rfl
@[simp] theorem acsiBegin_portX (k : Dev) (s : State) : (acsiBegin k s).portX = s.portX := rfl
@[simp] theorem acsiBegin_picks (k : Dev) (s : State) : (acsiBegin k s).picks = s.picks := rfl
@[simp] theorem acsiBegin_mem (k : Dev) (s : State) : (acsiBegin k s).mem = s.mem := rfl
@[simp] theorem acsiBegin_disks (k : Dev) (s : State) : (acsiBegin k s).disks = s.disks := rfl

/-! ### acsiBeginSense -/

@[simp] theorem acsiBeginSense_par (k : Dev) (s : State) : (acsiBeginSense k s).par = s.par := rfl
@[simp] theorem acsiBeginSense_now (k : Dev) (s : State) : (acsiBeginSense k s).now = s.now := rfl
@[simp] theorem acsiBeginSense_cfg (k : Dev) (s : State) : (acsiBeginSense k s).cfg = s.cfg := rfl
@[simp] theorem acsiBeginSense_ag (k : Dev) (s : State) : (acsiBeginSense k s).ag = s.ag := rfl
@[simp] theorem acsiBeginSense_disp (k : Dev) (s : State) : (acsiBeginSense k s).disp = s.disp := rfl
@[simp] theorem acsiBeginSense_advTarget (k : Dev) (s : State) :
    (acsiBeginSense k s).advTarget = s.advTarget := rfl
@[simp] theorem acsiBeginSense_fireCb (k : Dev) (s : State) :
    (acsiBeginSense k s).fireCb = s.fireCb := rfl
@[simp] theorem acsiBeginSense_fireParam (k : Dev) (s : State) :
    (acsiBeginSense k s).fireParam = s.fireParam := rfl
@[simp] theorem acsiBeginSense_fireTime (k : Dev) (s : State) :
    (acsiBeginSense k s).fireTime = s.fireTime := rfl
@[simp] theorem acsiBeginSense_cb (k : Dev) (s : State) : (acsiBeginSense k s).cb = s.cb := rfl
@[simp] theorem acsiBeginSense_acia (k : Dev) (s : State) : (acsiBeginSense k s).acia = s.acia := rfl
@[simp] theorem acsiBeginSense_dma (k : Dev) (s : State) : (acsiBeginSense k s).dma = s.dma := rfl
@[simp] theorem acsiBeginSense_fdd (k : Dev) (s : State) : (acsiBeginSense k s).fdd = s.fdd := rfl
@[simp] theorem acsiBeginSense_lastStep (k : Dev) (s : State) :
    (acsiBeginSense k s).lastStep = s.lastStep := rfl
@[simp] theorem acsiBeginSense_acsiDev (k : Dev) (s : State) :
    (acsiBeginSense k s).acsiDev = s.acsiDev := rfl
@[simp] theorem acsiBeginSense_ax (k : Dev) (s : State) : (acsiBeginSense k s).ax = s.ax := rfl
@[simp] theorem acsiBeginSense_pins (k : Dev) (s : State) : (acsiBeginSense k s).pins = s.pins := rfl
@[simp] theorem acsiBeginSense_trace (k : Dev) (s : State) :
    (acsiBeginSense k s).trace = s.trace := rfl
@[simp] theorem acsiBeginSense_acsiPending (k : Dev) (s : State) :
    (acsiBeginSense k s).acsiPending = s.acsiPending := rfl
@[simp] theorem acsiBeginSense_serving (k : Dev) (s : State) :
    (acsiBeginSense k s).serving = s.serving := rfl
@[simp] theorem acsiBeginSense_portE (k : Dev) (s : State) :
    (acsiBeginSense k s).portE = s.portE := rfl
@[simp] theorem acsiBeginSense_portX (k : Dev) (s : State) :
    (acsiBeginSense k s).portX = s.portX := rfl
@[simp] theorem acsiBeginSense_picks (k : Dev) (s : State) :
    (acsiBeginSense k s).picks = s.picks := rfl
@[simp] theorem acsiBeginSense_mem (k : Dev) (s : State) : (acsiBeginSense k s).mem = s.mem := rfl
@[simp] theorem acsiBeginSense_disks (k : Dev) (s : State) :
    (acsiBeginSense k s).disks = s.disks := rfl

/-! ### finishDispatch -/

@[simp] theorem finishDispatch_par (s : State) : (finishDispatch s).par = s.par := by simp [finishDispatch]
@[simp] theorem finishDispatch_now (s : State) : (finishDispatch s).now = s.now := by simp [finishDispatch]
@[simp] theorem finishDispatch_cfg (s : State) : (finishDispatch s).cfg = s.cfg := by simp [finishDispatch]
@[simp] theorem finishDispatch_ag (s : State) : (finishDispatch s).ag = s.ag := by simp [finishDispatch]
@[simp] theorem finishDispatch_disp (s : State) : (finishDispatch s).disp = .idle := by simp [finishDispatch]
@[simp] theorem finishDispatch_advTarget (s : State) :
    (finishDispatch s).advTarget = s.advTarget := by simp [finishDispatch]
@[simp] theorem finishDispatch_fireCb (s : State) : (finishDispatch s).fireCb = s.fireCb := by simp [finishDispatch]
@[simp] theorem finishDispatch_fireParam (s : State) :
    (finishDispatch s).fireParam = s.fireParam := by simp [finishDispatch]
@[simp] theorem finishDispatch_fireTime (s : State) :
    (finishDispatch s).fireTime = s.fireTime := by simp [finishDispatch]
@[simp] theorem finishDispatch_cb (s : State) : (finishDispatch s).cb = s.cb := by simp [finishDispatch]
@[simp] theorem finishDispatch_acia (s : State) : (finishDispatch s).acia = s.acia := by simp [finishDispatch]
@[simp] theorem finishDispatch_dma (s : State) : (finishDispatch s).dma = s.dma := by simp [finishDispatch]
@[simp] theorem finishDispatch_fdd (s : State) : (finishDispatch s).fdd = s.fdd := by simp [finishDispatch]
@[simp] theorem finishDispatch_lastStep (s : State) :
    (finishDispatch s).lastStep = s.lastStep := by simp [finishDispatch]
@[simp] theorem finishDispatch_acsi (s : State) : (finishDispatch s).acsi = s.acsi := by simp [finishDispatch]
@[simp] theorem finishDispatch_acsiDev (s : State) : (finishDispatch s).acsiDev = s.acsiDev := by simp [finishDispatch]
@[simp] theorem finishDispatch_ax (s : State) : (finishDispatch s).ax = s.ax := by simp [finishDispatch]
@[simp] theorem finishDispatch_pins (s : State) : (finishDispatch s).pins = s.pins := by simp [finishDispatch]
@[simp] theorem finishDispatch_trace (s : State) : (finishDispatch s).trace = s.trace := by simp [finishDispatch]
@[simp] theorem finishDispatch_acsiPending (s : State) :
    (finishDispatch s).acsiPending = s.acsiPending := by simp [finishDispatch]
@[simp] theorem finishDispatch_serving (s : State) : (finishDispatch s).serving = s.serving := by simp [finishDispatch]
@[simp] theorem finishDispatch_picks (s : State) : (finishDispatch s).picks = s.picks := by simp [finishDispatch]
@[simp] theorem finishDispatch_mem (s : State) : (finishDispatch s).mem = s.mem := by simp [finishDispatch]
@[simp] theorem finishDispatch_disks (s : State) : (finishDispatch s).disks = s.disks := by simp [finishDispatch]

/-! ### Where an answer goes -/

theorem State.answer_E (s : State) (w : Word128) (h : s.serving = .E) :
    s.answer w = { s with portE := s.portE.give w } := by simp [State.answer, h]

theorem State.answer_X (s : State) (w : Word128) (h : s.serving = .X) :
    s.answer w = { s with portX := s.portX.give w } := by simp [State.answer, h]

@[simp] theorem PortIO.give_queue (p : PortIO) (w : Word128) : (p.give w).queue = p.queue.tail := rfl
@[simp] theorem PortIO.give_replies (p : PortIO) (w : Word128) : (p.give w).replies = p.replies ++ [w] := rfl

/-! ### Pins -/

@[simp] theorem State.setPin_level (s : State) (l : IrqLine) (v : Bool) : (s.setPin l v).pins.level l = v := by
  unfold State.setPin
  split
  · assumption
  · cases l <;> rfl

theorem State.setPin_level_other (s : State) (l m : IrqLine) (v : Bool) (h : m ≠ l) :
    (s.setPin l v).pins.level m = s.pins.level m := by
  unfold State.setPin
  split
  · rfl
  · cases l <;> cases m <;> first | rfl | exact absurd rfl h

/-! ### State.cold -/

@[simp] theorem State.cold_par (p : Params) : (State.cold p).par = p := rfl
@[simp] theorem State.cold_now (p : Params) : (State.cold p).now = p.clockReset := rfl
@[simp] theorem State.cold_cfg (p : Params) : (State.cold p).cfg = p.cfgReset := rfl
@[simp] theorem State.cold_ag (p : Params) : (State.cold p).ag = Vector.replicate 256 p.reset.entry := rfl
@[simp] theorem State.cold_disp (p : Params) : (State.cold p).disp = p.reset.disp := rfl
@[simp] theorem State.cold_advTarget (p : Params) : (State.cold p).advTarget = p.clockReset := rfl
@[simp] theorem State.cold_fireCb (p : Params) : (State.cold p).fireCb = p.reset.fireCb := rfl
@[simp] theorem State.cold_fireParam (p : Params) : (State.cold p).fireParam = p.reset.fireParam := rfl
@[simp] theorem State.cold_fireTime (p : Params) : (State.cold p).fireTime = p.clockReset := rfl
@[simp] theorem State.cold_cb (p : Params) : (State.cold p).cb = Vector.replicate 256 (CircBuf.cold p) := rfl
@[simp] theorem State.cold_acia (p : Params) : (State.cold p).acia = Vector.replicate 2 (Acia.cold p) := rfl
@[simp] theorem State.cold_dma (p : Params) : (State.cold p).dma = p.reset.dma := rfl
@[simp] theorem State.cold_fdd (p : Params) : (State.cold p).fdd = Vector.replicate 3 (Fdd.cold p) := rfl
@[simp] theorem State.cold_lastStep (p : Params) : (State.cold p).lastStep = Vector.replicate 2 p.reset.lastStep := rfl
@[simp] theorem State.cold_acsi (p : Params) : (State.cold p).acsi = Vector.replicate 8 (AcsiDev.cold p) := rfl
@[simp] theorem State.cold_acsiDev (p : Params) : (State.cold p).acsiDev = p.reset.acsiDev := rfl
@[simp] theorem State.cold_ax (p : Params) : (State.cold p).ax = p.reset.ax := rfl
@[simp] theorem State.cold_pins (p : Params) : (State.cold p).pins = p.reset.pins := rfl
@[simp] theorem State.cold_trace (p : Params) : (State.cold p).trace = [] := rfl
@[simp] theorem State.cold_acsiPending (p : Params) : (State.cold p).acsiPending = none := rfl
@[simp] theorem State.cold_mem (p : Params) : (State.cold p).mem = [] := rfl

/-- RESET's state is the cold boot of its own parameters, but for what is outside the PEE (log entry 11). -/
theorem coldBoot_eq (s : State) :
    coldBoot s = { State.cold s.par with
      serving := s.serving, portE := s.portE, portX := s.portX, picks := s.picks, mem := s.mem, disks := s.disks } := rfl

end Sys2Proof.Machine
end

