-- ==== Sys2Proof/Laws/Frames.lean ====
section
/-! SUPPORT. What the shared operations leave alone: one lemma for each operation, with every field it
does not write. -/

namespace Sys2Proof.Machine

@[simp] theorem checkIrq_leaves (i : Fin 2) (s : State) :
    (checkIrq i s).par = s.par ∧ (checkIrq i s).now = s.now ∧ (checkIrq i s).cfg = s.cfg ∧ (checkIrq i s).ag = s.ag ∧
    (checkIrq i s).disp = s.disp ∧ (checkIrq i s).advTarget = s.advTarget ∧ (checkIrq i s).fireCb = s.fireCb ∧
    (checkIrq i s).fireParam = s.fireParam ∧ (checkIrq i s).fireTime = s.fireTime ∧ (checkIrq i s).cb = s.cb ∧
    (checkIrq i s).dma = s.dma ∧ (checkIrq i s).fdd = s.fdd ∧ (checkIrq i s).lastStep = s.lastStep ∧
    (checkIrq i s).acsi = s.acsi ∧ (checkIrq i s).acsiDev = s.acsiDev ∧ (checkIrq i s).ax = s.ax ∧
    (checkIrq i s).acsiPending = s.acsiPending ∧ (checkIrq i s).serving = s.serving ∧ (checkIrq i s).portE = s.portE ∧
    (checkIrq i s).portX = s.portX ∧ (checkIrq i s).picks = s.picks ∧ (checkIrq i s).mem = s.mem ∧
    (checkIrq i s).disks = s.disks := by
  simp [checkIrq]

@[simp] theorem aciaReset_leaves (i : Fin 2) (s : State) :
    (aciaReset i s).par = s.par ∧ (aciaReset i s).now = s.now ∧ (aciaReset i s).cfg = s.cfg ∧
    (aciaReset i s).disp = s.disp ∧ (aciaReset i s).advTarget = s.advTarget ∧ (aciaReset i s).fireCb = s.fireCb ∧
    (aciaReset i s).fireParam = s.fireParam ∧ (aciaReset i s).fireTime = s.fireTime ∧ (aciaReset i s).cb = s.cb ∧
    (aciaReset i s).dma = s.dma ∧ (aciaReset i s).fdd = s.fdd ∧ (aciaReset i s).lastStep = s.lastStep ∧
    (aciaReset i s).acsi = s.acsi ∧ (aciaReset i s).acsiDev = s.acsiDev ∧ (aciaReset i s).ax = s.ax ∧
    (aciaReset i s).acsiPending = s.acsiPending ∧ (aciaReset i s).serving = s.serving ∧
    (aciaReset i s).portE = s.portE ∧ (aciaReset i s).portX = s.portX ∧ (aciaReset i s).picks = s.picks ∧
    (aciaReset i s).mem = s.mem ∧ (aciaReset i s).disks = s.disks := by
  simp [aciaReset]

@[simp] theorem setControl_leaves (i : Fin 2) (v : Byte) (s : State) :
    (setControl i v s).par = s.par ∧ (setControl i v s).now = s.now ∧ (setControl i v s).cfg = s.cfg ∧
    (setControl i v s).disp = s.disp ∧ (setControl i v s).advTarget = s.advTarget ∧
    (setControl i v s).fireCb = s.fireCb ∧ (setControl i v s).fireParam = s.fireParam ∧
    (setControl i v s).fireTime = s.fireTime ∧ (setControl i v s).cb = s.cb ∧ (setControl i v s).dma = s.dma ∧
    (setControl i v s).fdd = s.fdd ∧ (setControl i v s).lastStep = s.lastStep ∧ (setControl i v s).acsi = s.acsi ∧
    (setControl i v s).acsiDev = s.acsiDev ∧ (setControl i v s).ax = s.ax ∧
    (setControl i v s).acsiPending = s.acsiPending ∧ (setControl i v s).serving = s.serving ∧
    (setControl i v s).portE = s.portE ∧ (setControl i v s).portX = s.portX ∧ (setControl i v s).picks = s.picks ∧
    (setControl i v s).mem = s.mem ∧ (setControl i v s).disks = s.disks := by
  unfold setControl
  dsimp only
  split <;> simp

@[simp] theorem transmitTdr_leaves (i : Fin 2) (s : State) :
    (transmitTdr i s).par = s.par ∧ (transmitTdr i s).now = s.now ∧ (transmitTdr i s).cfg = s.cfg ∧
    (transmitTdr i s).disp = s.disp ∧ (transmitTdr i s).advTarget = s.advTarget ∧
    (transmitTdr i s).fireCb = s.fireCb ∧ (transmitTdr i s).fireParam = s.fireParam ∧
    (transmitTdr i s).fireTime = s.fireTime ∧ (transmitTdr i s).cb = s.cb ∧ (transmitTdr i s).dma = s.dma ∧
    (transmitTdr i s).fdd = s.fdd ∧ (transmitTdr i s).lastStep = s.lastStep ∧ (transmitTdr i s).acsi = s.acsi ∧
    (transmitTdr i s).acsiDev = s.acsiDev ∧ (transmitTdr i s).ax = s.ax ∧
    (transmitTdr i s).acsiPending = s.acsiPending ∧ (transmitTdr i s).serving = s.serving ∧
    (transmitTdr i s).portE = s.portE ∧ (transmitTdr i s).portX = s.portX ∧ (transmitTdr i s).picks = s.picks ∧
    (transmitTdr i s).mem = s.mem ∧ (transmitTdr i s).disks = s.disks := by
  simp [transmitTdr]

@[simp] theorem writeTdr_leaves (i : Fin 2) (v : Byte) (s : State) :
    (writeTdr i v s).par = s.par ∧ (writeTdr i v s).now = s.now ∧ (writeTdr i v s).cfg = s.cfg ∧
    (writeTdr i v s).disp = s.disp ∧ (writeTdr i v s).advTarget = s.advTarget ∧ (writeTdr i v s).fireCb = s.fireCb ∧
    (writeTdr i v s).fireParam = s.fireParam ∧ (writeTdr i v s).fireTime = s.fireTime ∧ (writeTdr i v s).cb = s.cb ∧
    (writeTdr i v s).dma = s.dma ∧ (writeTdr i v s).fdd = s.fdd ∧ (writeTdr i v s).lastStep = s.lastStep ∧
    (writeTdr i v s).acsi = s.acsi ∧ (writeTdr i v s).acsiDev = s.acsiDev ∧ (writeTdr i v s).ax = s.ax ∧
    (writeTdr i v s).acsiPending = s.acsiPending ∧ (writeTdr i v s).serving = s.serving ∧
    (writeTdr i v s).portE = s.portE ∧ (writeTdr i v s).portX = s.portX ∧ (writeTdr i v s).picks = s.picks ∧
    (writeTdr i v s).mem = s.mem ∧ (writeTdr i v s).disks = s.disks := by
  unfold writeTdr
  dsimp only
  split <;> simp

@[simp] theorem readRdr_leaves (i : Fin 2) (s : State) :
    (readRdr i s).par = s.par ∧ (readRdr i s).now = s.now ∧ (readRdr i s).cfg = s.cfg ∧ (readRdr i s).ag = s.ag ∧
    (readRdr i s).disp = s.disp ∧ (readRdr i s).advTarget = s.advTarget ∧ (readRdr i s).fireCb = s.fireCb ∧
    (readRdr i s).fireParam = s.fireParam ∧ (readRdr i s).fireTime = s.fireTime ∧ (readRdr i s).cb = s.cb ∧
    (readRdr i s).dma = s.dma ∧ (readRdr i s).fdd = s.fdd ∧ (readRdr i s).lastStep = s.lastStep ∧
    (readRdr i s).acsi = s.acsi ∧ (readRdr i s).acsiDev = s.acsiDev ∧ (readRdr i s).ax = s.ax ∧
    (readRdr i s).acsiPending = s.acsiPending ∧ (readRdr i s).serving = s.serving ∧ (readRdr i s).portE = s.portE ∧
    (readRdr i s).portX = s.portX ∧ (readRdr i s).picks = s.picks ∧ (readRdr i s).mem = s.mem ∧
    (readRdr i s).disks = s.disks := by
  simp [readRdr]

@[simp] theorem outputByte_leaves (i : Fin 2) (b : Byte) (s : State) :
    (outputByte i b s).par = s.par ∧ (outputByte i b s).now = s.now ∧ (outputByte i b s).cfg = s.cfg ∧
    (outputByte i b s).ag = s.ag ∧ (outputByte i b s).disp = s.disp ∧ (outputByte i b s).advTarget = s.advTarget ∧
    (outputByte i b s).fireCb = s.fireCb ∧ (outputByte i b s).fireParam = s.fireParam ∧
    (outputByte i b s).fireTime = s.fireTime ∧ (outputByte i b s).cb = s.cb ∧ (outputByte i b s).acia = s.acia ∧
    (outputByte i b s).dma = s.dma ∧ (outputByte i b s).fdd = s.fdd ∧ (outputByte i b s).lastStep = s.lastStep ∧
    (outputByte i b s).acsi = s.acsi ∧ (outputByte i b s).acsiDev = s.acsiDev ∧ (outputByte i b s).ax = s.ax ∧
    (outputByte i b s).pins = s.pins ∧ (outputByte i b s).acsiPending = s.acsiPending ∧
    (outputByte i b s).serving = s.serving ∧ (outputByte i b s).portE = s.portE ∧ (outputByte i b s).portX = s.portX ∧
    (outputByte i b s).picks = s.picks ∧ (outputByte i b s).mem = s.mem ∧ (outputByte i b s).disks = s.disks := by
  exact ⟨rfl, rfl, rfl, rfl, rfl, rfl, rfl, rfl, rfl, rfl, rfl, rfl, rfl, rfl, rfl, rfl, rfl, rfl, rfl, rfl, rfl, rfl, rfl, rfl, rfl⟩

@[simp] theorem aciaTxDone_leaves (i : Fin 2) (s : State) :
    (aciaTxDone i s).par = s.par ∧ (aciaTxDone i s).now = s.now ∧ (aciaTxDone i s).cfg = s.cfg ∧
    (aciaTxDone i s).disp = s.disp ∧ (aciaTxDone i s).advTarget = s.advTarget ∧ (aciaTxDone i s).fireCb = s.fireCb ∧
    (aciaTxDone i s).fireParam = s.fireParam ∧ (aciaTxDone i s).fireTime = s.fireTime ∧ (aciaTxDone i s).cb = s.cb ∧
    (aciaTxDone i s).dma = s.dma ∧ (aciaTxDone i s).fdd = s.fdd ∧ (aciaTxDone i s).lastStep = s.lastStep ∧
    (aciaTxDone i s).acsi = s.acsi ∧ (aciaTxDone i s).acsiDev = s.acsiDev ∧ (aciaTxDone i s).ax = s.ax ∧
    (aciaTxDone i s).acsiPending = s.acsiPending ∧ (aciaTxDone i s).serving = s.serving ∧
    (aciaTxDone i s).portE = s.portE ∧ (aciaTxDone i s).portX = s.portX ∧ (aciaTxDone i s).picks = s.picks ∧
    (aciaTxDone i s).mem = s.mem ∧ (aciaTxDone i s).disks = s.disks := by
  unfold aciaTxDone
  dsimp only
  split <;> simp

@[simp] theorem aciaRxDone_leaves (i : Fin 2) (s : State) :
    (aciaRxDone i s).par = s.par ∧ (aciaRxDone i s).now = s.now ∧ (aciaRxDone i s).cfg = s.cfg ∧
    (aciaRxDone i s).ag = s.ag ∧ (aciaRxDone i s).disp = s.disp ∧ (aciaRxDone i s).advTarget = s.advTarget ∧
    (aciaRxDone i s).fireCb = s.fireCb ∧ (aciaRxDone i s).fireParam = s.fireParam ∧
    (aciaRxDone i s).fireTime = s.fireTime ∧ (aciaRxDone i s).cb = s.cb ∧ (aciaRxDone i s).dma = s.dma ∧
    (aciaRxDone i s).fdd = s.fdd ∧ (aciaRxDone i s).lastStep = s.lastStep ∧ (aciaRxDone i s).acsi = s.acsi ∧
    (aciaRxDone i s).acsiDev = s.acsiDev ∧ (aciaRxDone i s).ax = s.ax ∧ (aciaRxDone i s).acsiPending = s.acsiPending ∧
    (aciaRxDone i s).serving = s.serving ∧ (aciaRxDone i s).portE = s.portE ∧ (aciaRxDone i s).portX = s.portX ∧
    (aciaRxDone i s).picks = s.picks ∧ (aciaRxDone i s).mem = s.mem ∧ (aciaRxDone i s).disks = s.disks := by
  simp [aciaRxDone]

@[simp] theorem receiveByte_leaves (i : Fin 2) (b : Byte) (s : State) :
    (receiveByte i b s).par = s.par ∧ (receiveByte i b s).now = s.now ∧ (receiveByte i b s).cfg = s.cfg ∧
    (receiveByte i b s).disp = s.disp ∧ (receiveByte i b s).advTarget = s.advTarget ∧
    (receiveByte i b s).fireCb = s.fireCb ∧ (receiveByte i b s).fireParam = s.fireParam ∧
    (receiveByte i b s).fireTime = s.fireTime ∧ (receiveByte i b s).cb = s.cb ∧ (receiveByte i b s).dma = s.dma ∧
    (receiveByte i b s).fdd = s.fdd ∧ (receiveByte i b s).lastStep = s.lastStep ∧ (receiveByte i b s).acsi = s.acsi ∧
    (receiveByte i b s).acsiDev = s.acsiDev ∧ (receiveByte i b s).ax = s.ax ∧ (receiveByte i b s).pins = s.pins ∧
    (receiveByte i b s).trace = s.trace ∧ (receiveByte i b s).acsiPending = s.acsiPending ∧
    (receiveByte i b s).serving = s.serving ∧ (receiveByte i b s).portE = s.portE ∧
    (receiveByte i b s).portX = s.portX ∧ (receiveByte i b s).picks = s.picks ∧ (receiveByte i b s).mem = s.mem ∧
    (receiveByte i b s).disks = s.disks := by
  exact ⟨rfl, rfl, rfl, rfl, rfl, rfl, rfl, rfl, rfl, rfl, rfl, rfl, rfl, rfl, rfl, rfl, rfl, rfl, rfl, rfl, rfl, rfl, rfl, rfl⟩

@[simp] theorem transferBytes_leaves (s : State) :
    (transferBytes s).par = s.par ∧ (transferBytes s).now = s.now ∧ (transferBytes s).cfg = s.cfg ∧
    (transferBytes s).ag = s.ag ∧ (transferBytes s).disp = s.disp ∧ (transferBytes s).advTarget = s.advTarget ∧
    (transferBytes s).fireCb = s.fireCb ∧ (transferBytes s).fireParam = s.fireParam ∧
    (transferBytes s).fireTime = s.fireTime ∧ (transferBytes s).cb = s.cb ∧ (transferBytes s).acia = s.acia ∧
    (transferBytes s).fdd = s.fdd ∧ (transferBytes s).lastStep = s.lastStep ∧ (transferBytes s).acsi = s.acsi ∧
    (transferBytes s).acsiDev = s.acsiDev ∧ (transferBytes s).ax = s.ax ∧ (transferBytes s).pins = s.pins ∧
    (transferBytes s).acsiPending = s.acsiPending ∧ (transferBytes s).serving = s.serving ∧
    (transferBytes s).portE = s.portE ∧ (transferBytes s).portX = s.portX ∧ (transferBytes s).picks = s.picks ∧
    (transferBytes s).disks = s.disks := by
  exact ⟨rfl, rfl, rfl, rfl, rfl, rfl, rfl, rfl, rfl, rfl, rfl, rfl, rfl, rfl, rfl, rfl, rfl, rfl, rfl, rfl, rfl, rfl, rfl⟩

@[simp] theorem requestTransfer_leaves (s : State) :
    (requestTransfer s).par = s.par ∧ (requestTransfer s).now = s.now ∧ (requestTransfer s).cfg = s.cfg ∧
    (requestTransfer s).ag = s.ag ∧ (requestTransfer s).disp = s.disp ∧ (requestTransfer s).advTarget = s.advTarget ∧
    (requestTransfer s).fireCb = s.fireCb ∧ (requestTransfer s).fireParam = s.fireParam ∧
    (requestTransfer s).fireTime = s.fireTime ∧ (requestTransfer s).cb = s.cb ∧ (requestTransfer s).acia = s.acia ∧
    (requestTransfer s).fdd = s.fdd ∧ (requestTransfer s).lastStep = s.lastStep ∧ (requestTransfer s).acsi = s.acsi ∧
    (requestTransfer s).acsiDev = s.acsiDev ∧ (requestTransfer s).ax = s.ax ∧ (requestTransfer s).pins = s.pins ∧
    (requestTransfer s).acsiPending = s.acsiPending ∧ (requestTransfer s).serving = s.serving ∧
    (requestTransfer s).portE = s.portE ∧ (requestTransfer s).portX = s.portX ∧ (requestTransfer s).picks = s.picks ∧
    (requestTransfer s).mem = s.mem ∧ (requestTransfer s).disks = s.disks := by
  exact ⟨rfl, rfl, rfl, rfl, rfl, rfl, rfl, rfl, rfl, rfl, rfl, rfl, rfl, rfl, rfl, rfl, rfl, rfl, rfl, rfl, rfl, rfl, rfl, rfl⟩

@[simp] theorem addToFifo_leaves (b : Byte) (s : State) :
    (addToFifo b s).par = s.par ∧ (addToFifo b s).now = s.now ∧ (addToFifo b s).cfg = s.cfg ∧
    (addToFifo b s).ag = s.ag ∧ (addToFifo b s).disp = s.disp ∧ (addToFifo b s).advTarget = s.advTarget ∧
    (addToFifo b s).fireCb = s.fireCb ∧ (addToFifo b s).fireParam = s.fireParam ∧
    (addToFifo b s).fireTime = s.fireTime ∧ (addToFifo b s).cb = s.cb ∧ (addToFifo b s).acia = s.acia ∧
    (addToFifo b s).fdd = s.fdd ∧ (addToFifo b s).lastStep = s.lastStep ∧ (addToFifo b s).acsi = s.acsi ∧
    (addToFifo b s).acsiDev = s.acsiDev ∧ (addToFifo b s).ax = s.ax ∧ (addToFifo b s).pins = s.pins ∧
    (addToFifo b s).acsiPending = s.acsiPending ∧ (addToFifo b s).serving = s.serving ∧
    (addToFifo b s).portE = s.portE ∧ (addToFifo b s).portX = s.portX ∧ (addToFifo b s).picks = s.picks ∧
    (addToFifo b s).disks = s.disks := by
  unfold addToFifo
  dsimp only
  split <;> simp

@[simp] theorem drqIn_leaves (b : Byte) (s : State) :
    (drqIn b s).par = s.par ∧ (drqIn b s).now = s.now ∧ (drqIn b s).cfg = s.cfg ∧ (drqIn b s).ag = s.ag ∧
    (drqIn b s).disp = s.disp ∧ (drqIn b s).advTarget = s.advTarget ∧ (drqIn b s).fireCb = s.fireCb ∧
    (drqIn b s).fireParam = s.fireParam ∧ (drqIn b s).fireTime = s.fireTime ∧ (drqIn b s).cb = s.cb ∧
    (drqIn b s).acia = s.acia ∧ (drqIn b s).fdd = s.fdd ∧ (drqIn b s).lastStep = s.lastStep ∧
    (drqIn b s).acsi = s.acsi ∧ (drqIn b s).acsiDev = s.acsiDev ∧ (drqIn b s).ax = s.ax ∧ (drqIn b s).pins = s.pins ∧
    (drqIn b s).acsiPending = s.acsiPending ∧ (drqIn b s).serving = s.serving ∧ (drqIn b s).portE = s.portE ∧
    (drqIn b s).portX = s.portX ∧ (drqIn b s).picks = s.picks ∧ (drqIn b s).disks = s.disks := by
  unfold drqIn
  split
  · simp
  · split <;> simp

@[simp] theorem fillHalf_leaves (s : State) :
    (fillHalf s).par = s.par ∧ (fillHalf s).now = s.now ∧ (fillHalf s).cfg = s.cfg ∧ (fillHalf s).ag = s.ag ∧
    (fillHalf s).disp = s.disp ∧ (fillHalf s).advTarget = s.advTarget ∧ (fillHalf s).fireCb = s.fireCb ∧
    (fillHalf s).fireParam = s.fireParam ∧ (fillHalf s).fireTime = s.fireTime ∧ (fillHalf s).cb = s.cb ∧
    (fillHalf s).acia = s.acia ∧ (fillHalf s).fdd = s.fdd ∧ (fillHalf s).lastStep = s.lastStep ∧
    (fillHalf s).acsi = s.acsi ∧ (fillHalf s).acsiDev = s.acsiDev ∧ (fillHalf s).ax = s.ax ∧
    (fillHalf s).pins = s.pins ∧ (fillHalf s).acsiPending = s.acsiPending ∧ (fillHalf s).serving = s.serving ∧
    (fillHalf s).portE = s.portE ∧ (fillHalf s).portX = s.portX ∧ (fillHalf s).picks = s.picks ∧
    (fillHalf s).mem = s.mem ∧ (fillHalf s).disks = s.disks := by
  unfold fillHalf
  split <;> simp

@[simp] theorem drqOut_leaves (s : State) :
    (drqOut s).2.par = s.par ∧ (drqOut s).2.now = s.now ∧ (drqOut s).2.cfg = s.cfg ∧ (drqOut s).2.ag = s.ag ∧
    (drqOut s).2.disp = s.disp ∧ (drqOut s).2.advTarget = s.advTarget ∧ (drqOut s).2.fireCb = s.fireCb ∧
    (drqOut s).2.fireParam = s.fireParam ∧ (drqOut s).2.fireTime = s.fireTime ∧ (drqOut s).2.cb = s.cb ∧
    (drqOut s).2.acia = s.acia ∧ (drqOut s).2.fdd = s.fdd ∧ (drqOut s).2.lastStep = s.lastStep ∧
    (drqOut s).2.acsi = s.acsi ∧ (drqOut s).2.acsiDev = s.acsiDev ∧ (drqOut s).2.ax = s.ax ∧
    (drqOut s).2.pins = s.pins ∧ (drqOut s).2.acsiPending = s.acsiPending ∧ (drqOut s).2.serving = s.serving ∧
    (drqOut s).2.portE = s.portE ∧ (drqOut s).2.portX = s.portX ∧ (drqOut s).2.picks = s.picks ∧
    (drqOut s).2.mem = s.mem ∧ (drqOut s).2.disks = s.disks := by
  unfold drqOut
  split
  · split <;> simp
  · simp

@[simp] theorem drqInAll_leaves (l : List Byte) (s : State) :
    (drqInAll l s).par = s.par ∧ (drqInAll l s).now = s.now ∧ (drqInAll l s).cfg = s.cfg ∧ (drqInAll l s).ag = s.ag ∧
    (drqInAll l s).disp = s.disp ∧ (drqInAll l s).advTarget = s.advTarget ∧ (drqInAll l s).fireCb = s.fireCb ∧
    (drqInAll l s).fireParam = s.fireParam ∧ (drqInAll l s).fireTime = s.fireTime ∧ (drqInAll l s).cb = s.cb ∧
    (drqInAll l s).acia = s.acia ∧ (drqInAll l s).fdd = s.fdd ∧ (drqInAll l s).lastStep = s.lastStep ∧
    (drqInAll l s).acsi = s.acsi ∧ (drqInAll l s).acsiDev = s.acsiDev ∧ (drqInAll l s).ax = s.ax ∧
    (drqInAll l s).pins = s.pins ∧ (drqInAll l s).acsiPending = s.acsiPending ∧ (drqInAll l s).serving = s.serving ∧
    (drqInAll l s).portE = s.portE ∧ (drqInAll l s).portX = s.portX ∧ (drqInAll l s).picks = s.picks ∧
    (drqInAll l s).disks = s.disks := by
  induction l generalizing s with
  | nil => simp [drqInAll]
  | cons b l ih => simpa [drqInAll] using ih (drqIn b s)

@[simp] theorem drqOutAll_leaves (n : Nat) (s : State) :
    (drqOutAll n s).2.par = s.par ∧ (drqOutAll n s).2.now = s.now ∧ (drqOutAll n s).2.cfg = s.cfg ∧
    (drqOutAll n s).2.ag = s.ag ∧ (drqOutAll n s).2.disp = s.disp ∧ (drqOutAll n s).2.advTarget = s.advTarget ∧
    (drqOutAll n s).2.fireCb = s.fireCb ∧ (drqOutAll n s).2.fireParam = s.fireParam ∧
    (drqOutAll n s).2.fireTime = s.fireTime ∧ (drqOutAll n s).2.cb = s.cb ∧ (drqOutAll n s).2.acia = s.acia ∧
    (drqOutAll n s).2.fdd = s.fdd ∧ (drqOutAll n s).2.lastStep = s.lastStep ∧ (drqOutAll n s).2.acsi = s.acsi ∧
    (drqOutAll n s).2.acsiDev = s.acsiDev ∧ (drqOutAll n s).2.ax = s.ax ∧ (drqOutAll n s).2.pins = s.pins ∧
    (drqOutAll n s).2.acsiPending = s.acsiPending ∧ (drqOutAll n s).2.serving = s.serving ∧
    (drqOutAll n s).2.portE = s.portE ∧ (drqOutAll n s).2.portX = s.portX ∧ (drqOutAll n s).2.picks = s.picks ∧
    (drqOutAll n s).2.mem = s.mem ∧ (drqOutAll n s).2.disks = s.disks := by
  induction n generalizing s with
  | zero => simp [drqOutAll]
  | succ n ih => simpa [drqOutAll] using ih (drqOut s).2

@[simp] theorem drqOutBytes_leaves (n : Nat) (s : State) :
    (drqOutBytes n s).2.par = s.par ∧ (drqOutBytes n s).2.now = s.now ∧ (drqOutBytes n s).2.cfg = s.cfg ∧
    (drqOutBytes n s).2.ag = s.ag ∧ (drqOutBytes n s).2.disp = s.disp ∧ (drqOutBytes n s).2.advTarget = s.advTarget ∧
    (drqOutBytes n s).2.fireCb = s.fireCb ∧ (drqOutBytes n s).2.fireParam = s.fireParam ∧
    (drqOutBytes n s).2.fireTime = s.fireTime ∧ (drqOutBytes n s).2.cb = s.cb ∧ (drqOutBytes n s).2.acia = s.acia ∧
    (drqOutBytes n s).2.fdd = s.fdd ∧ (drqOutBytes n s).2.lastStep = s.lastStep ∧ (drqOutBytes n s).2.acsi = s.acsi ∧
    (drqOutBytes n s).2.acsiDev = s.acsiDev ∧ (drqOutBytes n s).2.ax = s.ax ∧ (drqOutBytes n s).2.pins = s.pins ∧
    (drqOutBytes n s).2.acsiPending = s.acsiPending ∧ (drqOutBytes n s).2.serving = s.serving ∧
    (drqOutBytes n s).2.portE = s.portE ∧ (drqOutBytes n s).2.portX = s.portX ∧ (drqOutBytes n s).2.picks = s.picks ∧
    (drqOutBytes n s).2.mem = s.mem ∧ (drqOutBytes n s).2.disks = s.disks := by
  simp [drqOutBytes]

@[simp] theorem imgSectorAt_leaves (h : Handle) (t : BitVec 8) (sd : Bool) (p : Nat) (s : State) :
    (imgSectorAt h t sd p s).2.par = s.par ∧ (imgSectorAt h t sd p s).2.now = s.now ∧
    (imgSectorAt h t sd p s).2.cfg = s.cfg ∧ (imgSectorAt h t sd p s).2.ag = s.ag ∧
    (imgSectorAt h t sd p s).2.disp = s.disp ∧ (imgSectorAt h t sd p s).2.advTarget = s.advTarget ∧
    (imgSectorAt h t sd p s).2.fireCb = s.fireCb ∧ (imgSectorAt h t sd p s).2.fireParam = s.fireParam ∧
    (imgSectorAt h t sd p s).2.fireTime = s.fireTime ∧ (imgSectorAt h t sd p s).2.cb = s.cb ∧
    (imgSectorAt h t sd p s).2.acia = s.acia ∧ (imgSectorAt h t sd p s).2.dma = s.dma ∧
    (imgSectorAt h t sd p s).2.fdd = s.fdd ∧ (imgSectorAt h t sd p s).2.lastStep = s.lastStep ∧
    (imgSectorAt h t sd p s).2.acsi = s.acsi ∧ (imgSectorAt h t sd p s).2.acsiDev = s.acsiDev ∧
    (imgSectorAt h t sd p s).2.ax = s.ax ∧ (imgSectorAt h t sd p s).2.pins = s.pins ∧
    (imgSectorAt h t sd p s).2.acsiPending = s.acsiPending ∧ (imgSectorAt h t sd p s).2.serving = s.serving ∧
    (imgSectorAt h t sd p s).2.portE = s.portE ∧ (imgSectorAt h t sd p s).2.portX = s.portX ∧
    (imgSectorAt h t sd p s).2.picks = s.picks ∧ (imgSectorAt h t sd p s).2.mem = s.mem ∧
    (imgSectorAt h t sd p s).2.disks = s.disks := by
  exact ⟨rfl, rfl, rfl, rfl, rfl, rfl, rfl, rfl, rfl, rfl, rfl, rfl, rfl, rfl, rfl, rfl, rfl, rfl, rfl, rfl, rfl, rfl, rfl, rfl, rfl⟩

@[simp] theorem ghostHas_leaves (h : Handle) (n : Sector) (s : State) :
    (ghostHas h n s).2.par = s.par ∧ (ghostHas h n s).2.now = s.now ∧ (ghostHas h n s).2.cfg = s.cfg ∧
    (ghostHas h n s).2.ag = s.ag ∧ (ghostHas h n s).2.disp = s.disp ∧ (ghostHas h n s).2.advTarget = s.advTarget ∧
    (ghostHas h n s).2.fireCb = s.fireCb ∧ (ghostHas h n s).2.fireParam = s.fireParam ∧
    (ghostHas h n s).2.fireTime = s.fireTime ∧ (ghostHas h n s).2.cb = s.cb ∧ (ghostHas h n s).2.acia = s.acia ∧
    (ghostHas h n s).2.dma = s.dma ∧ (ghostHas h n s).2.fdd = s.fdd ∧ (ghostHas h n s).2.lastStep = s.lastStep ∧
    (ghostHas h n s).2.acsi = s.acsi ∧ (ghostHas h n s).2.acsiDev = s.acsiDev ∧ (ghostHas h n s).2.ax = s.ax ∧
    (ghostHas h n s).2.pins = s.pins ∧ (ghostHas h n s).2.acsiPending = s.acsiPending ∧
    (ghostHas h n s).2.serving = s.serving ∧ (ghostHas h n s).2.portE = s.portE ∧ (ghostHas h n s).2.portX = s.portX ∧
    (ghostHas h n s).2.picks = s.picks ∧ (ghostHas h n s).2.mem = s.mem ∧ (ghostHas h n s).2.disks = s.disks := by
  exact ⟨rfl, rfl, rfl, rfl, rfl, rfl, rfl, rfl, rfl, rfl, rfl, rfl, rfl, rfl, rfl, rfl, rfl, rfl, rfl, rfl, rfl, rfl, rfl, rfl, rfl⟩

@[simp] theorem imgRead_leaves (h : Handle) (n : Sector) (z : Nat) (s : State) :
    (imgRead h n z s).2.par = s.par ∧ (imgRead h n z s).2.now = s.now ∧ (imgRead h n z s).2.cfg = s.cfg ∧
    (imgRead h n z s).2.ag = s.ag ∧ (imgRead h n z s).2.disp = s.disp ∧ (imgRead h n z s).2.advTarget = s.advTarget ∧
    (imgRead h n z s).2.fireCb = s.fireCb ∧ (imgRead h n z s).2.fireParam = s.fireParam ∧
    (imgRead h n z s).2.fireTime = s.fireTime ∧ (imgRead h n z s).2.cb = s.cb ∧ (imgRead h n z s).2.acia = s.acia ∧
    (imgRead h n z s).2.dma = s.dma ∧ (imgRead h n z s).2.fdd = s.fdd ∧ (imgRead h n z s).2.lastStep = s.lastStep ∧
    (imgRead h n z s).2.acsi = s.acsi ∧ (imgRead h n z s).2.acsiDev = s.acsiDev ∧ (imgRead h n z s).2.ax = s.ax ∧
    (imgRead h n z s).2.pins = s.pins ∧ (imgRead h n z s).2.acsiPending = s.acsiPending ∧
    (imgRead h n z s).2.serving = s.serving ∧ (imgRead h n z s).2.portE = s.portE ∧
    (imgRead h n z s).2.portX = s.portX ∧ (imgRead h n z s).2.picks = s.picks ∧ (imgRead h n z s).2.mem = s.mem := by
  exact ⟨rfl, rfl, rfl, rfl, rfl, rfl, rfl, rfl, rfl, rfl, rfl, rfl, rfl, rfl, rfl, rfl, rfl, rfl, rfl, rfl, rfl, rfl, rfl, rfl⟩

@[simp] theorem ghostRead_leaves (h : Handle) (n : Sector) (z : Nat) (s : State) :
    (ghostRead h n z s).2.par = s.par ∧ (ghostRead h n z s).2.now = s.now ∧ (ghostRead h n z s).2.cfg = s.cfg ∧
    (ghostRead h n z s).2.ag = s.ag ∧ (ghostRead h n z s).2.disp = s.disp ∧
    (ghostRead h n z s).2.advTarget = s.advTarget ∧ (ghostRead h n z s).2.fireCb = s.fireCb ∧
    (ghostRead h n z s).2.fireParam = s.fireParam ∧ (ghostRead h n z s).2.fireTime = s.fireTime ∧
    (ghostRead h n z s).2.cb = s.cb ∧ (ghostRead h n z s).2.acia = s.acia ∧ (ghostRead h n z s).2.dma = s.dma ∧
    (ghostRead h n z s).2.fdd = s.fdd ∧ (ghostRead h n z s).2.lastStep = s.lastStep ∧
    (ghostRead h n z s).2.acsi = s.acsi ∧ (ghostRead h n z s).2.acsiDev = s.acsiDev ∧
    (ghostRead h n z s).2.ax = s.ax ∧ (ghostRead h n z s).2.pins = s.pins ∧
    (ghostRead h n z s).2.acsiPending = s.acsiPending ∧ (ghostRead h n z s).2.serving = s.serving ∧
    (ghostRead h n z s).2.portE = s.portE ∧ (ghostRead h n z s).2.portX = s.portX ∧
    (ghostRead h n z s).2.picks = s.picks ∧ (ghostRead h n z s).2.mem = s.mem := by
  exact ⟨rfl, rfl, rfl, rfl, rfl, rfl, rfl, rfl, rfl, rfl, rfl, rfl, rfl, rfl, rfl, rfl, rfl, rfl, rfl, rfl, rfl, rfl, rfl, rfl⟩

@[simp] theorem imgWrite_leaves (h : Handle) (n : Sector) (b : List Byte) (s : State) :
    (imgWrite h n b s).2.par = s.par ∧ (imgWrite h n b s).2.now = s.now ∧ (imgWrite h n b s).2.cfg = s.cfg ∧
    (imgWrite h n b s).2.ag = s.ag ∧ (imgWrite h n b s).2.disp = s.disp ∧
    (imgWrite h n b s).2.advTarget = s.advTarget ∧ (imgWrite h n b s).2.fireCb = s.fireCb ∧
    (imgWrite h n b s).2.fireParam = s.fireParam ∧ (imgWrite h n b s).2.fireTime = s.fireTime ∧
    (imgWrite h n b s).2.cb = s.cb ∧ (imgWrite h n b s).2.acia = s.acia ∧ (imgWrite h n b s).2.dma = s.dma ∧
    (imgWrite h n b s).2.fdd = s.fdd ∧ (imgWrite h n b s).2.lastStep = s.lastStep ∧
    (imgWrite h n b s).2.acsi = s.acsi ∧ (imgWrite h n b s).2.acsiDev = s.acsiDev ∧ (imgWrite h n b s).2.ax = s.ax ∧
    (imgWrite h n b s).2.pins = s.pins ∧ (imgWrite h n b s).2.acsiPending = s.acsiPending ∧
    (imgWrite h n b s).2.serving = s.serving ∧ (imgWrite h n b s).2.portE = s.portE ∧
    (imgWrite h n b s).2.portX = s.portX ∧ (imgWrite h n b s).2.picks = s.picks ∧
    (imgWrite h n b s).2.mem = s.mem := by
  unfold imgWrite
  dsimp only
  split <;> simp

@[simp] theorem ghostWrite_leaves (h : Handle) (n : Sector) (b : List Byte) (s : State) :
    (ghostWrite h n b s).2.par = s.par ∧ (ghostWrite h n b s).2.now = s.now ∧ (ghostWrite h n b s).2.cfg = s.cfg ∧
    (ghostWrite h n b s).2.ag = s.ag ∧ (ghostWrite h n b s).2.disp = s.disp ∧
    (ghostWrite h n b s).2.advTarget = s.advTarget ∧ (ghostWrite h n b s).2.fireCb = s.fireCb ∧
    (ghostWrite h n b s).2.fireParam = s.fireParam ∧ (ghostWrite h n b s).2.fireTime = s.fireTime ∧
    (ghostWrite h n b s).2.cb = s.cb ∧ (ghostWrite h n b s).2.acia = s.acia ∧ (ghostWrite h n b s).2.dma = s.dma ∧
    (ghostWrite h n b s).2.fdd = s.fdd ∧ (ghostWrite h n b s).2.lastStep = s.lastStep ∧
    (ghostWrite h n b s).2.acsi = s.acsi ∧ (ghostWrite h n b s).2.acsiDev = s.acsiDev ∧
    (ghostWrite h n b s).2.ax = s.ax ∧ (ghostWrite h n b s).2.pins = s.pins ∧
    (ghostWrite h n b s).2.acsiPending = s.acsiPending ∧ (ghostWrite h n b s).2.serving = s.serving ∧
    (ghostWrite h n b s).2.portE = s.portE ∧ (ghostWrite h n b s).2.portX = s.portX ∧
    (ghostWrite h n b s).2.picks = s.picks ∧ (ghostWrite h n b s).2.mem = s.mem := by
  unfold ghostWrite
  dsimp only
  split <;> simp

@[simp] theorem motorOn_leaves (d : Fin 2) (s : State) :
    (motorOn d s).par = s.par ∧ (motorOn d s).now = s.now ∧ (motorOn d s).cfg = s.cfg ∧ (motorOn d s).disp = s.disp ∧
    (motorOn d s).advTarget = s.advTarget ∧ (motorOn d s).fireCb = s.fireCb ∧ (motorOn d s).fireParam = s.fireParam ∧
    (motorOn d s).fireTime = s.fireTime ∧ (motorOn d s).cb = s.cb ∧ (motorOn d s).acia = s.acia ∧
    (motorOn d s).dma = s.dma ∧ (motorOn d s).lastStep = s.lastStep ∧ (motorOn d s).acsi = s.acsi ∧
    (motorOn d s).acsiDev = s.acsiDev ∧ (motorOn d s).ax = s.ax ∧ (motorOn d s).pins = s.pins ∧
    (motorOn d s).trace = s.trace ∧ (motorOn d s).acsiPending = s.acsiPending ∧ (motorOn d s).serving = s.serving ∧
    (motorOn d s).portE = s.portE ∧ (motorOn d s).portX = s.portX ∧ (motorOn d s).picks = s.picks ∧
    (motorOn d s).mem = s.mem ∧ (motorOn d s).disks = s.disks := by
  exact ⟨rfl, rfl, rfl, rfl, rfl, rfl, rfl, rfl, rfl, rfl, rfl, rfl, rfl, rfl, rfl, rfl, rfl, rfl, rfl, rfl, rfl, rfl, rfl, rfl⟩

@[simp] theorem motorOff_leaves (d : Fin 2) (s : State) :
    (motorOff d s).par = s.par ∧ (motorOff d s).now = s.now ∧ (motorOff d s).cfg = s.cfg ∧
    (motorOff d s).disp = s.disp ∧ (motorOff d s).advTarget = s.advTarget ∧ (motorOff d s).fireCb = s.fireCb ∧
    (motorOff d s).fireParam = s.fireParam ∧ (motorOff d s).fireTime = s.fireTime ∧ (motorOff d s).cb = s.cb ∧
    (motorOff d s).acia = s.acia ∧ (motorOff d s).dma = s.dma ∧ (motorOff d s).lastStep = s.lastStep ∧
    (motorOff d s).acsi = s.acsi ∧ (motorOff d s).acsiDev = s.acsiDev ∧ (motorOff d s).ax = s.ax ∧
    (motorOff d s).pins = s.pins ∧ (motorOff d s).trace = s.trace ∧ (motorOff d s).acsiPending = s.acsiPending ∧
    (motorOff d s).serving = s.serving ∧ (motorOff d s).portE = s.portE ∧ (motorOff d s).portX = s.portX ∧
    (motorOff d s).picks = s.picks ∧ (motorOff d s).mem = s.mem ∧ (motorOff d s).disks = s.disks := by
  exact ⟨rfl, rfl, rfl, rfl, rfl, rfl, rfl, rfl, rfl, rfl, rfl, rfl, rfl, rfl, rfl, rfl, rfl, rfl, rfl, rfl, rfl, rfl, rfl, rfl⟩

@[simp] theorem indexPulse_leaves (d : Fin 2) (ft : Clock) (s : State) :
    (indexPulse d ft s).par = s.par ∧ (indexPulse d ft s).now = s.now ∧ (indexPulse d ft s).cfg = s.cfg ∧
    (indexPulse d ft s).disp = s.disp ∧ (indexPulse d ft s).advTarget = s.advTarget ∧
    (indexPulse d ft s).fireCb = s.fireCb ∧ (indexPulse d ft s).fireParam = s.fireParam ∧
    (indexPulse d ft s).fireTime = s.fireTime ∧ (indexPulse d ft s).cb = s.cb ∧ (indexPulse d ft s).acia = s.acia ∧
    (indexPulse d ft s).dma = s.dma ∧ (indexPulse d ft s).lastStep = s.lastStep ∧ (indexPulse d ft s).acsi = s.acsi ∧
    (indexPulse d ft s).acsiDev = s.acsiDev ∧ (indexPulse d ft s).ax = s.ax ∧ (indexPulse d ft s).pins = s.pins ∧
    (indexPulse d ft s).acsiPending = s.acsiPending ∧ (indexPulse d ft s).serving = s.serving ∧
    (indexPulse d ft s).portE = s.portE ∧ (indexPulse d ft s).portX = s.portX ∧ (indexPulse d ft s).picks = s.picks ∧
    (indexPulse d ft s).mem = s.mem ∧ (indexPulse d ft s).disks = s.disks := by
  exact ⟨rfl, rfl, rfl, rfl, rfl, rfl, rfl, rfl, rfl, rfl, rfl, rfl, rfl, rfl, rfl, rfl, rfl, rfl, rfl, rfl, rfl, rfl, rfl⟩

@[simp] theorem stepHead_leaves (d : Fin 2) (dir : Bool) (s : State) :
    (stepHead d dir s).par = s.par ∧ (stepHead d dir s).now = s.now ∧ (stepHead d dir s).cfg = s.cfg ∧
    (stepHead d dir s).ag = s.ag ∧ (stepHead d dir s).disp = s.disp ∧ (stepHead d dir s).advTarget = s.advTarget ∧
    (stepHead d dir s).fireCb = s.fireCb ∧ (stepHead d dir s).fireParam = s.fireParam ∧
    (stepHead d dir s).fireTime = s.fireTime ∧ (stepHead d dir s).cb = s.cb ∧ (stepHead d dir s).acia = s.acia ∧
    (stepHead d dir s).dma = s.dma ∧ (stepHead d dir s).acsi = s.acsi ∧ (stepHead d dir s).acsiDev = s.acsiDev ∧
    (stepHead d dir s).ax = s.ax ∧ (stepHead d dir s).pins = s.pins ∧ (stepHead d dir s).trace = s.trace ∧
    (stepHead d dir s).acsiPending = s.acsiPending ∧ (stepHead d dir s).serving = s.serving ∧
    (stepHead d dir s).portE = s.portE ∧ (stepHead d dir s).portX = s.portX ∧ (stepHead d dir s).picks = s.picks ∧
    (stepHead d dir s).mem = s.mem ∧ (stepHead d dir s).disks = s.disks := by
  exact ⟨rfl, rfl, rfl, rfl, rfl, rfl, rfl, rfl, rfl, rfl, rfl, rfl, rfl, rfl, rfl, rfl, rfl, rfl, rfl, rfl, rfl, rfl, rfl, rfl⟩

@[simp] theorem fetchSector_leaves (d : Fin 2) (h : Handle) (n : Sector) (z : Nat) (s : State) :
    (fetchSector d h n z s).2.par = s.par ∧ (fetchSector d h n z s).2.now = s.now ∧
    (fetchSector d h n z s).2.cfg = s.cfg ∧ (fetchSector d h n z s).2.ag = s.ag ∧
    (fetchSector d h n z s).2.disp = s.disp ∧ (fetchSector d h n z s).2.advTarget = s.advTarget ∧
    (fetchSector d h n z s).2.fireCb = s.fireCb ∧ (fetchSector d h n z s).2.fireParam = s.fireParam ∧
    (fetchSector d h n z s).2.fireTime = s.fireTime ∧ (fetchSector d h n z s).2.cb = s.cb ∧
    (fetchSector d h n z s).2.acia = s.acia ∧ (fetchSector d h n z s).2.dma = s.dma ∧
    (fetchSector d h n z s).2.fdd = s.fdd ∧ (fetchSector d h n z s).2.lastStep = s.lastStep ∧
    (fetchSector d h n z s).2.acsi = s.acsi ∧ (fetchSector d h n z s).2.acsiDev = s.acsiDev ∧
    (fetchSector d h n z s).2.ax = s.ax ∧ (fetchSector d h n z s).2.pins = s.pins ∧
    (fetchSector d h n z s).2.acsiPending = s.acsiPending ∧ (fetchSector d h n z s).2.serving = s.serving ∧
    (fetchSector d h n z s).2.portE = s.portE ∧ (fetchSector d h n z s).2.portX = s.portX ∧
    (fetchSector d h n z s).2.picks = s.picks ∧ (fetchSector d h n z s).2.mem = s.mem := by
  unfold fetchSector
  split
  · dsimp only
    split <;> simp
  · simp

@[simp] theorem scheduleTransfer_leaves (d : Fin 2) (z : Nat) (s : State) :
    (scheduleTransfer d z s).par = s.par ∧ (scheduleTransfer d z s).now = s.now ∧
    (scheduleTransfer d z s).cfg = s.cfg ∧ (scheduleTransfer d z s).disp = s.disp ∧
    (scheduleTransfer d z s).advTarget = s.advTarget ∧ (scheduleTransfer d z s).fireCb = s.fireCb ∧
    (scheduleTransfer d z s).fireParam = s.fireParam ∧ (scheduleTransfer d z s).fireTime = s.fireTime ∧
    (scheduleTransfer d z s).cb = s.cb ∧ (scheduleTransfer d z s).acia = s.acia ∧
    (scheduleTransfer d z s).dma = s.dma ∧ (scheduleTransfer d z s).fdd = s.fdd ∧
    (scheduleTransfer d z s).lastStep = s.lastStep ∧ (scheduleTransfer d z s).acsi = s.acsi ∧
    (scheduleTransfer d z s).acsiDev = s.acsiDev ∧ (scheduleTransfer d z s).ax = s.ax ∧
    (scheduleTransfer d z s).pins = s.pins ∧ (scheduleTransfer d z s).trace = s.trace ∧
    (scheduleTransfer d z s).acsiPending = s.acsiPending ∧ (scheduleTransfer d z s).serving = s.serving ∧
    (scheduleTransfer d z s).portE = s.portE ∧ (scheduleTransfer d z s).portX = s.portX ∧
    (scheduleTransfer d z s).picks = s.picks ∧ (scheduleTransfer d z s).mem = s.mem ∧
    (scheduleTransfer d z s).disks = s.disks := by
  exact ⟨rfl, rfl, rfl, rfl, rfl, rfl, rfl, rfl, rfl, rfl, rfl, rfl, rfl, rfl, rfl, rfl, rfl, rfl, rfl, rfl, rfl, rfl, rfl, rfl, rfl⟩

@[simp] theorem storeSector_leaves (d : Fin 2) (b : List Byte) (s : State) :
    (storeSector d b s).2.par = s.par ∧ (storeSector d b s).2.now = s.now ∧ (storeSector d b s).2.cfg = s.cfg ∧
    (storeSector d b s).2.ag = s.ag ∧ (storeSector d b s).2.disp = s.disp ∧
    (storeSector d b s).2.advTarget = s.advTarget ∧ (storeSector d b s).2.fireCb = s.fireCb ∧
    (storeSector d b s).2.fireParam = s.fireParam ∧ (storeSector d b s).2.fireTime = s.fireTime ∧
    (storeSector d b s).2.cb = s.cb ∧ (storeSector d b s).2.acia = s.acia ∧ (storeSector d b s).2.dma = s.dma ∧
    (storeSector d b s).2.fdd = s.fdd ∧ (storeSector d b s).2.lastStep = s.lastStep ∧
    (storeSector d b s).2.acsi = s.acsi ∧ (storeSector d b s).2.acsiDev = s.acsiDev ∧
    (storeSector d b s).2.ax = s.ax ∧ (storeSector d b s).2.pins = s.pins ∧
    (storeSector d b s).2.acsiPending = s.acsiPending ∧ (storeSector d b s).2.serving = s.serving ∧
    (storeSector d b s).2.portE = s.portE ∧ (storeSector d b s).2.portX = s.portX ∧
    (storeSector d b s).2.picks = s.picks ∧ (storeSector d b s).2.mem = s.mem := by
  unfold storeSector
  dsimp only
  split
  · simp
  · split <;> simp

@[simp] theorem finishRead_leaves (d : Fin 2) (s : State) :
    (finishRead d s).par = s.par ∧ (finishRead d s).now = s.now ∧ (finishRead d s).cfg = s.cfg ∧
    (finishRead d s).ag = s.ag ∧ (finishRead d s).disp = s.disp ∧ (finishRead d s).advTarget = s.advTarget ∧
    (finishRead d s).fireCb = s.fireCb ∧ (finishRead d s).fireParam = s.fireParam ∧
    (finishRead d s).fireTime = s.fireTime ∧ (finishRead d s).cb = s.cb ∧ (finishRead d s).acia = s.acia ∧
    (finishRead d s).lastStep = s.lastStep ∧ (finishRead d s).acsi = s.acsi ∧ (finishRead d s).acsiDev = s.acsiDev ∧
    (finishRead d s).ax = s.ax ∧ (finishRead d s).pins = s.pins ∧ (finishRead d s).acsiPending = s.acsiPending ∧
    (finishRead d s).serving = s.serving ∧ (finishRead d s).portE = s.portE ∧ (finishRead d s).portX = s.portX ∧
    (finishRead d s).picks = s.picks ∧ (finishRead d s).disks = s.disks := by
  simp [finishRead]

@[simp] theorem finishWrite_leaves (d : Fin 2) (s : State) :
    (finishWrite d s).par = s.par ∧ (finishWrite d s).now = s.now ∧ (finishWrite d s).cfg = s.cfg ∧
    (finishWrite d s).ag = s.ag ∧ (finishWrite d s).disp = s.disp ∧ (finishWrite d s).advTarget = s.advTarget ∧
    (finishWrite d s).fireCb = s.fireCb ∧ (finishWrite d s).fireParam = s.fireParam ∧
    (finishWrite d s).fireTime = s.fireTime ∧ (finishWrite d s).cb = s.cb ∧ (finishWrite d s).acia = s.acia ∧
    (finishWrite d s).lastStep = s.lastStep ∧ (finishWrite d s).acsi = s.acsi ∧
    (finishWrite d s).acsiDev = s.acsiDev ∧ (finishWrite d s).ax = s.ax ∧ (finishWrite d s).pins = s.pins ∧
    (finishWrite d s).acsiPending = s.acsiPending ∧ (finishWrite d s).serving = s.serving ∧
    (finishWrite d s).portE = s.portE ∧ (finishWrite d s).portX = s.portX ∧ (finishWrite d s).picks = s.picks ∧
    (finishWrite d s).mem = s.mem := by
  unfold finishWrite
  dsimp only
  split
  · simp
  · split <;> simp

@[simp] theorem fddXferDone_leaves (d : Fin 2) (s : State) :
    (fddXferDone d s).par = s.par ∧ (fddXferDone d s).now = s.now ∧ (fddXferDone d s).cfg = s.cfg ∧
    (fddXferDone d s).ag = s.ag ∧ (fddXferDone d s).disp = s.disp ∧ (fddXferDone d s).advTarget = s.advTarget ∧
    (fddXferDone d s).fireCb = s.fireCb ∧ (fddXferDone d s).fireParam = s.fireParam ∧
    (fddXferDone d s).fireTime = s.fireTime ∧ (fddXferDone d s).cb = s.cb ∧ (fddXferDone d s).acia = s.acia ∧
    (fddXferDone d s).lastStep = s.lastStep ∧ (fddXferDone d s).acsi = s.acsi ∧
    (fddXferDone d s).acsiDev = s.acsiDev ∧ (fddXferDone d s).ax = s.ax ∧
    (fddXferDone d s).acsiPending = s.acsiPending ∧ (fddXferDone d s).serving = s.serving ∧
    (fddXferDone d s).portE = s.portE ∧ (fddXferDone d s).portX = s.portX ∧ (fddXferDone d s).picks = s.picks := by
  unfold fddXferDone
  split <;> simp

@[simp] theorem acsiFinish_leaves (k : Dev) (s : State) :
    (acsiFinish k s).par = s.par ∧ (acsiFinish k s).now = s.now ∧ (acsiFinish k s).cfg = s.cfg ∧
    (acsiFinish k s).ag = s.ag ∧ (acsiFinish k s).disp = s.disp ∧ (acsiFinish k s).advTarget = s.advTarget ∧
    (acsiFinish k s).fireCb = s.fireCb ∧ (acsiFinish k s).fireParam = s.fireParam ∧
    (acsiFinish k s).fireTime = s.fireTime ∧ (acsiFinish k s).cb = s.cb ∧ (acsiFinish k s).acia = s.acia ∧
    (acsiFinish k s).dma = s.dma ∧ (acsiFinish k s).fdd = s.fdd ∧ (acsiFinish k s).lastStep = s.lastStep ∧
    (acsiFinish k s).acsiDev = s.acsiDev ∧ (acsiFinish k s).ax = s.ax ∧ (acsiFinish k s).acsiPending = s.acsiPending ∧
    (acsiFinish k s).serving = s.serving ∧ (acsiFinish k s).portE = s.portE ∧ (acsiFinish k s).portX = s.portX ∧
    (acsiFinish k s).picks = s.picks ∧ (acsiFinish k s).mem = s.mem ∧ (acsiFinish k s).disks = s.disks := by
  simp [acsiFinish]

@[simp] theorem readBlock_leaves (k : Dev) (s : State) :
    (readBlock k s).2.par = s.par ∧ (readBlock k s).2.now = s.now ∧ (readBlock k s).2.cfg = s.cfg ∧
    (readBlock k s).2.ag = s.ag ∧ (readBlock k s).2.disp = s.disp ∧ (readBlock k s).2.advTarget = s.advTarget ∧
    (readBlock k s).2.fireCb = s.fireCb ∧ (readBlock k s).2.fireParam = s.fireParam ∧
    (readBlock k s).2.fireTime = s.fireTime ∧ (readBlock k s).2.cb = s.cb ∧ (readBlock k s).2.acia = s.acia ∧
    (readBlock k s).2.dma = s.dma ∧ (readBlock k s).2.fdd = s.fdd ∧ (readBlock k s).2.lastStep = s.lastStep ∧
    (readBlock k s).2.acsi = s.acsi ∧ (readBlock k s).2.acsiDev = s.acsiDev ∧ (readBlock k s).2.ax = s.ax ∧
    (readBlock k s).2.pins = s.pins ∧ (readBlock k s).2.acsiPending = s.acsiPending ∧
    (readBlock k s).2.serving = s.serving ∧ (readBlock k s).2.portE = s.portE ∧ (readBlock k s).2.portX = s.portX ∧
    (readBlock k s).2.picks = s.picks ∧ (readBlock k s).2.mem = s.mem := by
  unfold readBlock
  split <;> simp

@[simp] theorem writeBlock_leaves (k : Dev) (n : Sector) (b : List Byte) (s : State) :
    (writeBlock k n b s).2.par = s.par ∧ (writeBlock k n b s).2.now = s.now ∧ (writeBlock k n b s).2.cfg = s.cfg ∧
    (writeBlock k n b s).2.ag = s.ag ∧ (writeBlock k n b s).2.disp = s.disp ∧
    (writeBlock k n b s).2.advTarget = s.advTarget ∧ (writeBlock k n b s).2.fireCb = s.fireCb ∧
    (writeBlock k n b s).2.fireParam = s.fireParam ∧ (writeBlock k n b s).2.fireTime = s.fireTime ∧
    (writeBlock k n b s).2.cb = s.cb ∧ (writeBlock k n b s).2.acia = s.acia ∧ (writeBlock k n b s).2.dma = s.dma ∧
    (writeBlock k n b s).2.fdd = s.fdd ∧ (writeBlock k n b s).2.lastStep = s.lastStep ∧
    (writeBlock k n b s).2.acsi = s.acsi ∧ (writeBlock k n b s).2.acsiDev = s.acsiDev ∧
    (writeBlock k n b s).2.ax = s.ax ∧ (writeBlock k n b s).2.pins = s.pins ∧
    (writeBlock k n b s).2.acsiPending = s.acsiPending ∧ (writeBlock k n b s).2.serving = s.serving ∧
    (writeBlock k n b s).2.portE = s.portE ∧ (writeBlock k n b s).2.portX = s.portX ∧
    (writeBlock k n b s).2.picks = s.picks ∧ (writeBlock k n b s).2.mem = s.mem := by
  unfold writeBlock
  split <;> simp

@[simp] theorem blockFailed_leaves (k : Dev) (e : Byte) (s : State) :
    (blockFailed k e s).2.par = s.par ∧ (blockFailed k e s).2.now = s.now ∧ (blockFailed k e s).2.cfg = s.cfg ∧
    (blockFailed k e s).2.ag = s.ag ∧ (blockFailed k e s).2.disp = s.disp ∧
    (blockFailed k e s).2.advTarget = s.advTarget ∧ (blockFailed k e s).2.fireCb = s.fireCb ∧
    (blockFailed k e s).2.fireParam = s.fireParam ∧ (blockFailed k e s).2.fireTime = s.fireTime ∧
    (blockFailed k e s).2.cb = s.cb ∧ (blockFailed k e s).2.acia = s.acia ∧ (blockFailed k e s).2.dma = s.dma ∧
    (blockFailed k e s).2.fdd = s.fdd ∧ (blockFailed k e s).2.lastStep = s.lastStep ∧
    (blockFailed k e s).2.acsiDev = s.acsiDev ∧ (blockFailed k e s).2.ax = s.ax ∧
    (blockFailed k e s).2.pins = s.pins ∧ (blockFailed k e s).2.trace = s.trace ∧
    (blockFailed k e s).2.acsiPending = s.acsiPending ∧ (blockFailed k e s).2.serving = s.serving ∧
    (blockFailed k e s).2.portE = s.portE ∧ (blockFailed k e s).2.portX = s.portX ∧
    (blockFailed k e s).2.picks = s.picks ∧ (blockFailed k e s).2.mem = s.mem ∧
    (blockFailed k e s).2.disks = s.disks := by
  exact ⟨rfl, rfl, rfl, rfl, rfl, rfl, rfl, rfl, rfl, rfl, rfl, rfl, rfl, rfl, rfl, rfl, rfl, rfl, rfl, rfl, rfl, rfl, rfl, rfl, rfl⟩

@[simp] theorem blockMoved_leaves (k : Dev) (s : State) :
    (blockMoved k s).2.par = s.par ∧ (blockMoved k s).2.now = s.now ∧ (blockMoved k s).2.cfg = s.cfg ∧
    (blockMoved k s).2.ag = s.ag ∧ (blockMoved k s).2.disp = s.disp ∧ (blockMoved k s).2.advTarget = s.advTarget ∧
    (blockMoved k s).2.fireCb = s.fireCb ∧ (blockMoved k s).2.fireParam = s.fireParam ∧
    (blockMoved k s).2.fireTime = s.fireTime ∧ (blockMoved k s).2.cb = s.cb ∧ (blockMoved k s).2.acia = s.acia ∧
    (blockMoved k s).2.dma = s.dma ∧ (blockMoved k s).2.fdd = s.fdd ∧ (blockMoved k s).2.lastStep = s.lastStep ∧
    (blockMoved k s).2.acsiDev = s.acsiDev ∧ (blockMoved k s).2.pins = s.pins ∧ (blockMoved k s).2.trace = s.trace ∧
    (blockMoved k s).2.acsiPending = s.acsiPending ∧ (blockMoved k s).2.serving = s.serving ∧
    (blockMoved k s).2.portE = s.portE ∧ (blockMoved k s).2.portX = s.portX ∧ (blockMoved k s).2.picks = s.picks ∧
    (blockMoved k s).2.mem = s.mem ∧ (blockMoved k s).2.disks = s.disks := by
  exact ⟨rfl, rfl, rfl, rfl, rfl, rfl, rfl, rfl, rfl, rfl, rfl, rfl, rfl, rfl, rfl, rfl, rfl, rfl, rfl, rfl, rfl, rfl, rfl, rfl⟩

@[simp] theorem moveIn_leaves (k : Dev) (r : Option (List Byte) × State) :
    (moveIn k r).2.par = r.2.par ∧ (moveIn k r).2.now = r.2.now ∧ (moveIn k r).2.cfg = r.2.cfg ∧
    (moveIn k r).2.ag = r.2.ag ∧ (moveIn k r).2.disp = r.2.disp ∧ (moveIn k r).2.advTarget = r.2.advTarget ∧
    (moveIn k r).2.fireCb = r.2.fireCb ∧ (moveIn k r).2.fireParam = r.2.fireParam ∧
    (moveIn k r).2.fireTime = r.2.fireTime ∧ (moveIn k r).2.cb = r.2.cb ∧ (moveIn k r).2.acia = r.2.acia ∧
    (moveIn k r).2.fdd = r.2.fdd ∧ (moveIn k r).2.lastStep = r.2.lastStep ∧ (moveIn k r).2.acsiDev = r.2.acsiDev ∧
    (moveIn k r).2.pins = r.2.pins ∧ (moveIn k r).2.acsiPending = r.2.acsiPending ∧
    (moveIn k r).2.serving = r.2.serving ∧ (moveIn k r).2.portE = r.2.portE ∧ (moveIn k r).2.portX = r.2.portX ∧
    (moveIn k r).2.picks = r.2.picks := by
  unfold moveIn
  split <;> simp

@[simp] theorem moveOut_leaves (k : Dev) (r : Option (List Byte) × State) :
    (moveOut k r).2.par = r.2.par ∧ (moveOut k r).2.now = r.2.now ∧ (moveOut k r).2.cfg = r.2.cfg ∧
    (moveOut k r).2.ag = r.2.ag ∧ (moveOut k r).2.disp = r.2.disp ∧ (moveOut k r).2.advTarget = r.2.advTarget ∧
    (moveOut k r).2.fireCb = r.2.fireCb ∧ (moveOut k r).2.fireParam = r.2.fireParam ∧
    (moveOut k r).2.fireTime = r.2.fireTime ∧ (moveOut k r).2.cb = r.2.cb ∧ (moveOut k r).2.acia = r.2.acia ∧
    (moveOut k r).2.fdd = r.2.fdd ∧ (moveOut k r).2.lastStep = r.2.lastStep ∧ (moveOut k r).2.acsiDev = r.2.acsiDev ∧
    (moveOut k r).2.pins = r.2.pins ∧ (moveOut k r).2.acsiPending = r.2.acsiPending ∧
    (moveOut k r).2.serving = r.2.serving ∧ (moveOut k r).2.portE = r.2.portE ∧ (moveOut k r).2.portX = r.2.portX ∧
    (moveOut k r).2.picks = r.2.picks := by
  unfold moveOut
  dsimp only
  split
  · simp
  · split <;> simp

@[simp] theorem moveBlock_leaves (k : Dev) (s : State) :
    (moveBlock k s).2.par = s.par ∧ (moveBlock k s).2.now = s.now ∧ (moveBlock k s).2.cfg = s.cfg ∧
    (moveBlock k s).2.ag = s.ag ∧ (moveBlock k s).2.disp = s.disp ∧ (moveBlock k s).2.advTarget = s.advTarget ∧
    (moveBlock k s).2.fireCb = s.fireCb ∧ (moveBlock k s).2.fireParam = s.fireParam ∧
    (moveBlock k s).2.fireTime = s.fireTime ∧ (moveBlock k s).2.cb = s.cb ∧ (moveBlock k s).2.acia = s.acia ∧
    (moveBlock k s).2.fdd = s.fdd ∧ (moveBlock k s).2.lastStep = s.lastStep ∧ (moveBlock k s).2.acsiDev = s.acsiDev ∧
    (moveBlock k s).2.pins = s.pins ∧ (moveBlock k s).2.acsiPending = s.acsiPending ∧
    (moveBlock k s).2.serving = s.serving ∧ (moveBlock k s).2.portE = s.portE ∧ (moveBlock k s).2.portX = s.portX ∧
    (moveBlock k s).2.picks = s.picks := by
  unfold moveBlock
  split <;> simp

@[simp] theorem moveBlocks_leaves (k : Dev) (n : Nat) (s : State) :
    (moveBlocks k n s).par = s.par ∧ (moveBlocks k n s).now = s.now ∧ (moveBlocks k n s).cfg = s.cfg ∧
    (moveBlocks k n s).ag = s.ag ∧ (moveBlocks k n s).disp = s.disp ∧ (moveBlocks k n s).advTarget = s.advTarget ∧
    (moveBlocks k n s).fireCb = s.fireCb ∧ (moveBlocks k n s).fireParam = s.fireParam ∧
    (moveBlocks k n s).fireTime = s.fireTime ∧ (moveBlocks k n s).cb = s.cb ∧ (moveBlocks k n s).acia = s.acia ∧
    (moveBlocks k n s).fdd = s.fdd ∧ (moveBlocks k n s).lastStep = s.lastStep ∧
    (moveBlocks k n s).acsiDev = s.acsiDev ∧ (moveBlocks k n s).pins = s.pins ∧
    (moveBlocks k n s).acsiPending = s.acsiPending ∧ (moveBlocks k n s).serving = s.serving ∧
    (moveBlocks k n s).portE = s.portE ∧ (moveBlocks k n s).portX = s.portX ∧ (moveBlocks k n s).picks = s.picks := by
  induction n generalizing s with
  | zero => simp [moveBlocks]
  | succ n ih =>
    unfold moveBlocks
    dsimp only
    split
    · simpa using ih (moveBlock k s).2
    · simp

@[simp] theorem formatSectors_leaves (k : Dev) (l : Nat) (n : Sector) (s : State) :
    (formatSectors k l n s).par = s.par ∧ (formatSectors k l n s).now = s.now ∧ (formatSectors k l n s).cfg = s.cfg ∧
    (formatSectors k l n s).ag = s.ag ∧ (formatSectors k l n s).disp = s.disp ∧
    (formatSectors k l n s).advTarget = s.advTarget ∧ (formatSectors k l n s).fireCb = s.fireCb ∧
    (formatSectors k l n s).fireParam = s.fireParam ∧ (formatSectors k l n s).fireTime = s.fireTime ∧
    (formatSectors k l n s).cb = s.cb ∧ (formatSectors k l n s).acia = s.acia ∧ (formatSectors k l n s).fdd = s.fdd ∧
    (formatSectors k l n s).lastStep = s.lastStep ∧ (formatSectors k l n s).acsiDev = s.acsiDev ∧
    (formatSectors k l n s).ax = s.ax ∧ (formatSectors k l n s).pins = s.pins ∧
    (formatSectors k l n s).acsiPending = s.acsiPending ∧ (formatSectors k l n s).serving = s.serving ∧
    (formatSectors k l n s).portE = s.portE ∧ (formatSectors k l n s).portX = s.portX ∧
    (formatSectors k l n s).picks = s.picks ∧ (formatSectors k l n s).mem = s.mem := by
  induction l generalizing n s with
  | zero => simp [formatSectors]
  | succ l ih =>
    unfold formatSectors
    dsimp only
    split
    · simpa using ih (n + 1) (writeBlock k n (List.replicate s.par.acsiBlockBytes Config.acsiFill) s).2
    · simp

@[simp] theorem endTransfer_leaves (k : Dev) (s : State) :
    (endTransfer k s).par = s.par ∧ (endTransfer k s).now = s.now ∧ (endTransfer k s).cfg = s.cfg ∧
    (endTransfer k s).ag = s.ag ∧ (endTransfer k s).disp = s.disp ∧ (endTransfer k s).advTarget = s.advTarget ∧
    (endTransfer k s).fireCb = s.fireCb ∧ (endTransfer k s).fireParam = s.fireParam ∧
    (endTransfer k s).fireTime = s.fireTime ∧ (endTransfer k s).cb = s.cb ∧ (endTransfer k s).acia = s.acia ∧
    (endTransfer k s).dma = s.dma ∧ (endTransfer k s).fdd = s.fdd ∧ (endTransfer k s).lastStep = s.lastStep ∧
    (endTransfer k s).acsiDev = s.acsiDev ∧ (endTransfer k s).acsiPending = s.acsiPending ∧
    (endTransfer k s).serving = s.serving ∧ (endTransfer k s).portE = s.portE ∧ (endTransfer k s).portX = s.portX ∧
    (endTransfer k s).picks = s.picks ∧ (endTransfer k s).mem = s.mem ∧ (endTransfer k s).disks = s.disks := by
  simp [endTransfer]

@[simp] theorem startTransfer_leaves (k : Dev) (dir : Dir) (l : BitVec 24) (c : Byte) (s : State) :
    (startTransfer k dir l c s).par = s.par ∧ (startTransfer k dir l c s).now = s.now ∧
    (startTransfer k dir l c s).cfg = s.cfg ∧ (startTransfer k dir l c s).disp = s.disp ∧
    (startTransfer k dir l c s).advTarget = s.advTarget ∧ (startTransfer k dir l c s).fireCb = s.fireCb ∧
    (startTransfer k dir l c s).fireParam = s.fireParam ∧ (startTransfer k dir l c s).fireTime = s.fireTime ∧
    (startTransfer k dir l c s).cb = s.cb ∧ (startTransfer k dir l c s).acia = s.acia ∧
    (startTransfer k dir l c s).fdd = s.fdd ∧ (startTransfer k dir l c s).lastStep = s.lastStep ∧
    (startTransfer k dir l c s).acsiDev = s.acsiDev ∧ (startTransfer k dir l c s).acsiPending = s.acsiPending ∧
    (startTransfer k dir l c s).serving = s.serving ∧ (startTransfer k dir l c s).portE = s.portE ∧
    (startTransfer k dir l c s).portX = s.portX ∧ (startTransfer k dir l c s).picks = s.picks := by
  unfold startTransfer
  split
  · simp
  · dsimp only
    split
    · simp
    · split <;> simp

@[simp] theorem acsiBlockDone_leaves (k : Dev) (ft : Clock) (s : State) :
    (acsiBlockDone k ft s).par = s.par ∧ (acsiBlockDone k ft s).now = s.now ∧ (acsiBlockDone k ft s).cfg = s.cfg ∧
    (acsiBlockDone k ft s).disp = s.disp ∧ (acsiBlockDone k ft s).advTarget = s.advTarget ∧
    (acsiBlockDone k ft s).fireCb = s.fireCb ∧ (acsiBlockDone k ft s).fireParam = s.fireParam ∧
    (acsiBlockDone k ft s).fireTime = s.fireTime ∧ (acsiBlockDone k ft s).cb = s.cb ∧
    (acsiBlockDone k ft s).acia = s.acia ∧ (acsiBlockDone k ft s).fdd = s.fdd ∧
    (acsiBlockDone k ft s).lastStep = s.lastStep ∧ (acsiBlockDone k ft s).acsiDev = s.acsiDev ∧
    (acsiBlockDone k ft s).acsiPending = s.acsiPending ∧ (acsiBlockDone k ft s).serving = s.serving ∧
    (acsiBlockDone k ft s).portE = s.portE ∧ (acsiBlockDone k ft s).portX = s.portX ∧
    (acsiBlockDone k ft s).picks = s.picks := by
  unfold acsiBlockDone
  dsimp only
  split <;> simp

end Sys2Proof.Machine
end

