-- ==== Sys2Proof/Laws/Memory.lean ====
section
/-! SUPPORT. The laws of stores and of memory: a read after a write, a write leaves every other place alone, and every
operation keeps the canonical form. -/

namespace Sys2Proof.Machine

/-! ### Stores -/

section
variable {α : Type}

theorem storeFind_put_self (m : List (Nat × α)) (a : Nat) (x : α) : storeFind (storePut m a x) a = some x := by
  induction m with
  | nil => simp [storePut, storeFind]
  | cons e m ih =>
    obtain ⟨k, v⟩ := e
    unfold storePut
    split
    · simp [storeFind]
    · split
      · simp [storeFind]
      · rename_i h
        simp [storeFind, Ne.symm h, ih]

theorem storeFind_put_other (m : List (Nat × α)) (a b : Nat) (x : α) (h : b ≠ a) :
    storeFind (storePut m a x) b = storeFind m b := by
  induction m with
  | nil => simp [storePut, storeFind, Ne.symm h]
  | cons e m ih =>
    obtain ⟨k, v⟩ := e
    unfold storePut
    split
    · simp [storeFind, Ne.symm h]
    · split
      · rename_i _ hk
        subst hk
        simp [storeFind, Ne.symm h]
      · simp [storeFind, ih]

theorem storeFind_drop_other (m : List (Nat × α)) (a b : Nat) (h : b ≠ a) :
    storeFind (storeDrop m a) b = storeFind m b := by
  induction m with
  | nil => rfl
  | cons e m ih =>
    obtain ⟨k, v⟩ := e
    unfold storeDrop
    split
    · rename_i hk
      subst hk
      simp [storeFind, Ne.symm h]
    · simp [storeFind, ih]

/-- Whether a key may follow a lower bound. -/
def aboveBound (lo : Option Nat) (k : Nat) : Prop := ∀ l, lo = some l → l < k

theorem storeRisesAbove_cons (lo : Option Nat) (k : Nat) (v : α) (m : List (Nat × α)) :
    storeRisesAbove lo ((k, v) :: m) = true ↔ aboveBound lo k ∧ storeRisesAbove (some k) m = true := by
  cases lo <;> simp [storeRisesAbove, aboveBound]

theorem storeRisesAbove_mono (lo : Option Nat) (k : Nat) (m : List (Nat × α)) (hk : aboveBound lo k)
    (h : storeRisesAbove (some k) m = true) : storeRisesAbove lo m = true := by
  cases m with
  | nil => rfl
  | cons e m =>
    obtain ⟨k', v⟩ := e
    rw [storeRisesAbove_cons] at h ⊢
    exact ⟨fun l hl => lt_trans (hk l hl) (h.1 k rfl), h.2⟩

theorem storeFind_none_of_rises (m : List (Nat × α)) (a l : Nat) (h : storeRisesAbove (some l) m = true) (ha : a ≤ l) :
    storeFind m a = none := by
  induction m generalizing l with
  | nil => rfl
  | cons e m ih =>
    obtain ⟨k, v⟩ := e
    rw [storeRisesAbove_cons] at h
    have hk := h.1 l rfl
    simp only [storeFind]
    rw [if_neg (by omega)]
    exact ih k h.2 (by omega)

theorem storeFind_drop_self (m : List (Nat × α)) (a : Nat) (lo : Option Nat) (h : storeRisesAbove lo m = true) :
    storeFind (storeDrop m a) a = none := by
  induction m generalizing lo with
  | nil => rfl
  | cons e m ih =>
    obtain ⟨k, v⟩ := e
    rw [storeRisesAbove_cons] at h
    unfold storeDrop
    split
    · rename_i hk
      subst hk
      exact storeFind_none_of_rises m k k h.2 le_rfl
    · rename_i hk
      simpa [storeFind, hk] using ih (some k) h.2

theorem storeRisesAbove_put (m : List (Nat × α)) (a : Nat) (x : α) (lo : Option Nat) (ha : aboveBound lo a)
    (h : storeRisesAbove lo m = true) : storeRisesAbove lo (storePut m a x) = true := by
  induction m generalizing lo with
  | nil => simpa [storePut, storeRisesAbove_cons] using ⟨ha, rfl⟩
  | cons e m ih =>
    obtain ⟨k, v⟩ := e
    rw [storeRisesAbove_cons] at h
    unfold storePut
    split
    · rename_i hlt
      rw [storeRisesAbove_cons, storeRisesAbove_cons]
      exact ⟨ha, fun l hl => by cases hl; exact hlt, h.2⟩
    · split
      · rename_i _ heq
        subst heq
        rw [storeRisesAbove_cons]
        exact h
      · rw [storeRisesAbove_cons]
        exact ⟨h.1, ih (some k) (fun l hl => by cases hl; omega) h.2⟩

theorem storeRisesAbove_drop (m : List (Nat × α)) (a : Nat) (lo : Option Nat) (h : storeRisesAbove lo m = true) :
    storeRisesAbove lo (storeDrop m a) = true := by
  induction m generalizing lo with
  | nil => rfl
  | cons e m ih =>
    obtain ⟨k, v⟩ := e
    rw [storeRisesAbove_cons] at h
    unfold storeDrop
    split
    · exact storeRisesAbove_mono lo k m h.1 h.2
    · rw [storeRisesAbove_cons]
      exact ⟨h.1, ih (some k) h.2⟩

theorem mem_storePut (m : List (Nat × α)) (a : Nat) (x : α) (e : Nat × α) (h : e ∈ storePut m a x) :
    e = (a, x) ∨ e ∈ m := by
  induction m with
  | nil => simpa [storePut] using h
  | cons f m ih =>
    obtain ⟨k, v⟩ := f
    unfold storePut at h
    split at h
    · simpa using h
    · split at h
      · rcases List.mem_cons.1 h with h | h
        · exact .inl h
        · exact .inr (List.mem_cons_of_mem _ h)
      · rcases List.mem_cons.1 h with h | h
        · exact .inr (by simp [h])
        · rcases ih h with h | h
          · exact .inl h
          · exact .inr (List.mem_cons_of_mem _ h)

theorem mem_storeDrop (m : List (Nat × α)) (a : Nat) (e : Nat × α) (h : e ∈ storeDrop m a) : e ∈ m := by
  induction m with
  | nil => exact h
  | cons f m ih =>
    obtain ⟨k, v⟩ := f
    unfold storeDrop at h
    split at h
    · exact List.mem_cons_of_mem _ h
    · rcases List.mem_cons.1 h with h | h
      · simp [h]
      · exact List.mem_cons_of_mem _ (ih h)

end

/-! ### Memory -/

theorem Memory.wf_iff (w : Nat) (m : List Host.Cell) :
    Memory.wf w m = true ↔
      storeRisesAbove none m = true ∧ ∀ c ∈ m, c.1 < 2 ^ w ∧ c.2 ≠ Config.unlistedByte := by
  simp [Memory.wf, storeRises, List.all_eq_true]

/-- Memory at reset is canonical. -/
theorem Memory.wf_reset : Memory.wf State.reset.par.dmaAddrW State.reset.mem = true := rfl

theorem Memory.wf_write (w : Nat) (m : List Host.Cell) (a : Addr) (b : Byte) (ha : a.toNat < 2 ^ w)
    (h : Memory.wf w m = true) :
    Memory.wf w (Memory.write m a b) = true := by
  rw [Memory.wf_iff] at h ⊢
  unfold Memory.write
  split
  · exact ⟨storeRisesAbove_drop m _ none h.1, fun c hc => h.2 c (mem_storeDrop m _ c hc)⟩
  · rename_i hb
    refine ⟨storeRisesAbove_put m _ b none (fun l hl => by cases hl) h.1, fun c hc => ?_⟩
    rcases mem_storePut m _ b c hc with rfl | hc
    · exact ⟨ha, hb⟩
    · exact h.2 c hc

theorem Memory.read_write_self (w : Nat) (m : List Host.Cell) (a : Addr) (b : Byte) (h : Memory.wf w m = true) :
    Memory.read (Memory.write m a b) a = b := by
  rw [Memory.wf_iff] at h
  unfold Memory.read Memory.write
  split
  · rename_i hb
    rw [storeFind_drop_self m _ none h.1]
    exact hb.symm
  · rw [storeFind_put_self]
    rfl

theorem Memory.read_write_other (m : List Host.Cell) (a c : Addr) (b : Byte) (h : c ≠ a) :
    Memory.read (Memory.write m a b) c = Memory.read m c := by
  have hne : c.toNat ≠ a.toNat := fun e => h (BitVec.eq_of_toNat_eq e)
  unfold Memory.read Memory.write
  split
  · rw [storeFind_drop_other m _ _ hne]
  · rw [storeFind_put_other m _ _ b hne]

/-- An address the machine forms is in the address space. -/
theorem Params.addrAt_lt (p : Params) (a : Addr) (k : Nat) : (p.addrAt a k).toNat < 2 ^ p.dmaAddrW := by
  have h : (a.toNat + k) % 2 ^ p.dmaAddrW < 2 ^ p.dmaAddrW := Nat.mod_lt _ (Nat.two_pow_pos _)
  have h' := Nat.mod_le ((a.toNat + k) % 2 ^ p.dmaAddrW) (2 ^ 32)
  simp only [Params.addrAt, BitVec.toNat_ofNat]
  omega

/-- The addresses the machine forms add up, when they fit the 32 bits that carry them. -/
theorem Params.addrAt_addrAt (p : Params) (hp : p.dmaAddrW ≤ 32) (a : Addr) (j k : Nat) :
    p.addrAt (p.addrAt a j) k = p.addrAt a (j + k) := by
  have hw : 2 ^ p.dmaAddrW ≤ 2 ^ 32 := Nat.pow_le_pow_right (by decide) hp
  have h : (a.toNat + j) % 2 ^ p.dmaAddrW < 2 ^ p.dmaAddrW := Nat.mod_lt _ (Nat.two_pow_pos _)
  unfold Params.addrAt
  rw [BitVec.toNat_ofNat, Nat.mod_eq_of_lt (lt_of_lt_of_le h hw), Nat.mod_add_mod, Nat.add_assoc]

theorem Memory.wf_writeBytes (p : Params) (l : List Byte) (m : List Host.Cell) (a : Addr)
    (h : Memory.wf p.dmaAddrW m = true) : Memory.wf p.dmaAddrW (Memory.writeBytes p m a l) = true := by
  induction l generalizing m a with
  | nil => exact h
  | cons b l ih => exact ih _ _ (Memory.wf_write _ m _ b (Params.addrAt_lt p a 0) h)

/-- A byte outside the bytes written reads as before. -/
theorem Memory.read_writeBytes_outside (p : Params) (hp : p.dmaAddrW ≤ 32) (l : List Byte) (m : List Host.Cell)
    (a c : Addr) (h : ∀ k, k < l.length → c ≠ p.addrAt a k) :
    Memory.read (Memory.writeBytes p m a l) c = Memory.read m c := by
  induction l generalizing m a with
  | nil => rfl
  | cons b l ih =>
    unfold Memory.writeBytes
    rw [ih]
    · exact Memory.read_write_other m _ c b (h 0 (by simp))
    · intro k hk e
      refine h (k + 1) (by simpa using hk) ?_
      rw [e, Params.addrAt_addrAt p hp, Nat.add_comm]

/-- Every memory operation of the machine keeps the canonical form. -/
theorem Memory.wf_memWrite (a : Addr) (v : Vector Byte 16) (s : State) (h : Memory.wf s.par.dmaAddrW s.mem = true) :
    Memory.wf s.par.dmaAddrW (memWrite a v s).mem = true := by
  rw [memWrite_mem]
  exact Memory.wf_writeBytes _ _ _ _ h

theorem Memory.wf_addToFifo (b : Byte) (s : State) (h : Memory.wf s.par.dmaAddrW s.mem = true) :
    Memory.wf s.par.dmaAddrW (addToFifo b s).mem = true := by
  unfold addToFifo
  dsimp only
  split
  · exact Memory.wf_memWrite _ _ (State.modDma (s.modDma (Dma.putByte b)) fun d => { d with idx := 0 }) h
  · exact h

theorem Memory.wf_drqIn (b : Byte) (s : State) (h : Memory.wf s.par.dmaAddrW s.mem = true) :
    Memory.wf s.par.dmaAddrW (drqIn b s).mem = true := by
  unfold drqIn
  split
  · exact h
  · split
    · exact h
    · exact Memory.wf_addToFifo b s h

theorem Memory.wf_drqInAll (l : List Byte) (s : State) (h : Memory.wf s.par.dmaAddrW s.mem = true) :
    Memory.wf s.par.dmaAddrW (drqInAll l s).mem = true := by
  induction l generalizing s with
  | nil => exact h
  | cons b l ih =>
    have e : (drqIn b s).par = s.par := by simp
    have := ih (drqIn b s)
    rw [e] at this
    exact this (Memory.wf_drqIn b s h)

end Sys2Proof.Machine
end

