-- ==== Sys2Proof/Laws/Ops.lean ====
section
/-! SUPPORT. What each shared operation can answer, said once. -/

namespace Sys2Proof.Machine

/-! ### Answers -/

theorem respond_next {flags rcb : BitVec 8} {data : BitVec 32} {time : Clock} {s t : State} :
    respond flags rcb data time s = .next t ↔ t = s.answer (respWord 0 flags rcb data time) := by
  simp [respond, eq_comm]

theorem respondOk_next {s t : State} : respondOk s = .next t ↔ t = s.answer (respWord 0 OK 0 0 0) := respond_next

theorem respondData_next {data : BitVec 32} {s t : State} :
    respondData data s = .next t ↔ t = s.answer (respWord 0 (OK ||| VALID) 0 data 0) := respond_next

theorem respondTime_next {time : Clock} {s t : State} :
    respondTime time s = .next t ↔ t = s.answer (respWord 0 (OK ||| VALID) 0 0 time) := respond_next

theorem raise_next {e : ErrCode} {s t : State} : raise e s = .next t ↔ t = refuse e s := by
  simp [raise, eq_comm]

/-! ### Division -/

/-- With a divisor a division is the spec's. -/
theorem quotient_of_ne {n d : Nat} (h : d ≠ 0) : quotient n d = n / d := if_neg h

theorem remainder_of_ne {n d : Nat} (h : d ≠ 0) : remainder n d = n % d := if_neg h

theorem remainder_lt {n d : Nat} (h : d ≠ 0) : remainder n d < d := by
  rw [remainder_of_ne h]
  exact Nat.mod_lt _ (Nat.pos_of_ne_zero h)

/-- A position is one of a legal track. -/
theorem bytePosition_lt {p : Params} (h : p.Ok) (f : Fdd) (now : Clock) : f.bytePosition p now < p.fddBytesPerTrack :=
  remainder_lt (Nat.pos_iff_ne_zero.1 h.track.1)

/-- The divisor of a conversion is positive. -/
theorem hblsPerRotation_pos {p : Params} (h : p.Ok) :
    hblsPerRotation p = p.hblPerSec * 60 / p.fddRpm ∧ 0 < hblsPerRotation p := by
  have e : hblsPerRotation p = p.hblPerSec * 60 / p.fddRpm := quotient_of_ne (Nat.pos_iff_ne_zero.1 h.rotation.1)
  exact ⟨e, e ▸ Nat.div_pos h.rotation.2 h.rotation.1⟩

/-! ### Checks -/

theorem index_some {n m : Nat} {sel : BitVec 8} {i : Fin m} :
    index n sel = some i ↔ sel.toNat < n ∧ sel.toNat = i.val := by
  unfold index
  split
  · rename_i h
    constructor
    · intro e
      cases e
      exact ⟨h.1, rfl⟩
    · intro e
      exact congrArg some (Fin.ext e.2)
  · rename_i h
    constructor
    · intro e
      cases e
    · intro e
      exact absurd ⟨e.1, e.2 ▸ i.isLt⟩ h

theorem index_none {n m : Nat} {sel : BitVec 8} :
    (index n sel : Option (Fin m)) = none ↔ n ≤ sel.toNat ∨ m ≤ sel.toNat := by
  unfold index
  split <;> simp <;> omega

/-- A command with a SEL operand is refused, or goes on with the number. -/
theorem select_next {n m : Nat} {sel : BitVec 8} {s t : State} {body : Fin m → Result}
    (h : select n sel s body = .next t) :
    ((n ≤ sel.toNat ∨ m ≤ sel.toNat) ∧ t = refuse .badSel s) ∨
      ∃ i : Fin m, sel.toNat < n ∧ sel.toNat = i.val ∧ body i = .next t := by
  unfold select at h
  split at h
  · exact .inl ⟨index_none.1 ‹_›, raise_next.1 h⟩
  · exact .inr ⟨_, (index_some.1 ‹_›).1, (index_some.1 ‹_›).2, h⟩

theorem select_ok {n m : Nat} {sel : BitVec 8} {s : State} {body : Fin m → Result} (i : Fin m) (hn : i.val < n)
    (h : sel.toNat = i.val) : select n sel s body = body i := by
  unfold select
  rw [index_some.2 ⟨h ▸ hn, h⟩]

theorem select_bad {n m : Nat} {sel : BitVec 8} {s : State} {body : Fin m → Result} (h : n ≤ sel.toNat) :
    select n sel s body = raise .badSel s := by
  unfold select
  rw [index_none.2 (.inl h)]

/-- A time-carrying command is refused as a regress, or goes on at its own time. -/
theorem timed_next {now : Clock} {s t : State} {body : State → Result} (h : timed now s body = .next t) :
    (s.par.sdiff now s.now < 0 ∧ t = refuse .timeRegress s) ∨
      (0 ≤ s.par.sdiff now s.now ∧ body { s with now := now } = .next t) := by
  unfold timed at h
  split at h
  · exact .inl ⟨‹_›, raise_next.1 h⟩
  · exact .inr ⟨by omega, h⟩

theorem timed_ok {now : Clock} {s : State} {body : State → Result} (h : 0 ≤ s.par.sdiff now s.now) :
    timed now s body = body { s with now := now } := by
  unfold timed
  rw [if_neg (by omega)]

theorem timed_bad {now : Clock} {s : State} {body : State → Result} (h : s.par.sdiff now s.now < 0) :
    timed now s body = raise .timeRegress s := by
  unfold timed
  rw [if_pos h]

/-- A command on an external identity is refused, or goes on. -/
theorem external_next {cb : BitVec 8} {s t : State} {body : CbId → Result} (h : external cb s body = .next t) :
    (s.par.ncb ≤ cb.toNat ∧ t = refuse .badSel s) ∨
      (cb.toNat < s.par.ncbInt ∧ t = refuse .priv s) ∨
      ∃ c : CbId, cb.toNat = c.val ∧ c.val < s.par.ncb ∧ s.par.ncbInt ≤ c.val ∧ body c = .next t := by
  rcases select_next h with ⟨hn, h⟩ | ⟨c, hn, hc, h⟩
  · exact .inl ⟨by have := cb.isLt; omega, h⟩
  · split at h
    · exact .inr (.inl ⟨by omega, raise_next.1 h⟩)
    · exact .inr (.inr ⟨c, hc, by omega, by omega, h⟩)

/-! ### Time -/

/-- A ClockValue is within `CW` bits. -/
theorem Params.cycles_lt (p : Params) (n : Nat) : (p.cycles n).toNat < 2 ^ p.cw := by
  have h : n % 2 ^ p.cw < 2 ^ p.cw := Nat.mod_lt _ (Nat.two_pow_pos _)
  have h' := Nat.mod_le (n % 2 ^ p.cw) (2 ^ 64)
  simp only [Params.cycles, BitVec.toNat_ofNat]
  omega

/-- A number of cycles is its ClockValue modulo `2^CW`. -/
theorem Params.cycles_toNat (p : Params) (hp : p.cw ≤ 64) (n : Nat) : (p.cycles n).toNat = n % 2 ^ p.cw := by
  have hw : 2 ^ p.cw ≤ 2 ^ 64 := Nat.pow_le_pow_right (by decide) hp
  have h : n % 2 ^ p.cw < 2 ^ p.cw := Nat.mod_lt _ (Nat.two_pow_pos _)
  simp only [Params.cycles, BitVec.toNat_ofNat]
  exact Nat.mod_eq_of_lt (lt_of_lt_of_le h hw)

/-- No time is before itself. -/
@[simp] theorem Params.sdiff_self (p : Params) (a : Clock) : p.sdiff a a = 0 := by
  simp [Params.sdiff]

/-- A sum is as far from its first term as the second says, while that is less than half the range (00_scope.md R13). -/
theorem Params.sdiff_tadd (p : Params) (hp : p.cw ≤ 64) (a d : Clock) : p.sdiff (p.tadd a d) a = p.sdiff d 0 := by
  unfold Params.sdiff Params.tadd
  rw [Params.cycles_toNat p hp, Int.natCast_mod, Int.sub_eq_add_neg, Int.emod_add_bmod]
  congr 1
  simp

/-! ### Callbacks and buffers -/

/-- A callback finds no entry and does nothing, or takes the entry and runs its body. -/
theorem dispatchEntry_next {c : CbId} {body : AgEntry → State → Result} {s t : State}
    (h : dispatchEntry c body s = .next t) :
    (s.ag[c] = none ∧ t = s) ∨ ∃ e, s.ag[c] = some e ∧ body e (s.cancel c) = .next t := by
  unfold dispatchEntry at h
  split at h
  · exact .inl ⟨‹_›, by simpa [eq_comm] using h⟩
  · exact .inr ⟨_, ‹_›, h⟩

/-- A critical section waits, or does its body on the buffer and answers. -/
theorem critical_next {b : BufId} {body : CircBuf → CircBuf × Word128} {s t : State}
    (h : critical b body s = .next t) :
    ((s.cb[b]).mx = true ∧ t = s) ∨
      ((s.cb[b]).mx = false ∧
        t = State.answer { s with cb := s.cb.set b { (body { s.cb[b] with mx := true }).1 with mx := false } }
          (body { s.cb[b] with mx := true }).2) := by
  unfold critical at h
  dsimp only at h
  split at h
  · exact .inl ⟨‹_›, by simpa [eq_comm] using h⟩
  · rename_i hm
    exact .inr ⟨by simpa using hm, by simpa [eq_comm] using h⟩

/-! ### Registers -/

/-- A register write is refused for its value, or is a timed write. -/
theorem writeRegister_next {r : WriteReg} {v : BitVec 32} {now : Clock} {s t : State}
    (h : writeRegister r v now s = .next t) :
    (r.accepts s.par v = false ∧ t = refuse .reserved s) ∨
      (r.accepts s.par v = true ∧ timed now s (writeRule r v) = .next t) := by
  unfold writeRegister at h
  split at h
  · exact .inr ⟨‹_›, h⟩
  · rename_i ha
    exact .inl ⟨by simpa using ha, raise_next.1 h⟩

/-! ### The ACIA -/

/-- After `CheckIrq` the flag is the formula. -/
theorem checkIrq_irq (i : Fin 2) (s : State) : ((checkIrq i s).acia[i]).irq = (s.acia[i]).irqFormula := by
  simp [checkIrq]

/-- `CheckIrq` changes nothing else of its ACIA. -/
theorem checkIrq_self (i : Fin 2) (s : State) :
    (checkIrq i s).acia[i] = { s.acia[i] with irq := (s.acia[i]).irqFormula } := by
  simp [checkIrq]

/-- `CheckIrq` leaves the other ACIA alone. -/
theorem checkIrq_other (i j : Fin 2) (s : State) (h : j ≠ i) : (checkIrq i s).acia[j] = s.acia[j] := by
  have : i.val ≠ j.val := fun e => h (Fin.ext e.symm)
  simp [checkIrq, this]

/-- After `CheckIrq` the pin has the level of the formula. -/
theorem checkIrq_pin (i : Fin 2) (s : State) :
    (checkIrq i s).pins.level (aciaLine i) = (s.acia[i]).irqFormula := by
  simp [checkIrq]

/-! ### The DMA -/

/-- A byte given to the DMA is refused for the direction, refused for a zero count, or put in the FIFO. -/
theorem drqIn_cases (b : Byte) (s : State) :
    (s.dma.dirWrite = true ∧ drqIn b s = s.modDma fun d => { d with drq := true, err := true }) ∨
      (s.dma.dirWrite = false ∧ s.dma.sct = 0 ∧ drqIn b s = s.modDma fun d => { d with drq := true }) ∨
      (s.dma.dirWrite = false ∧ s.dma.sct ≠ 0 ∧
        drqIn b s = (addToFifo b s).modDma fun d => { d with drq := false }) := by
  unfold drqIn
  split
  · exact .inl ⟨‹_›, rfl⟩
  · rename_i hd
    have hd : s.dma.dirWrite = false := by simpa using hd
    split
    · exact .inr (.inl ⟨hd, ‹_›, rfl⟩)
    · exact .inr (.inr ⟨hd, ‹_›, rfl⟩)

/-- A byte asked of the DMA: the three cases. -/
theorem drqOut_cases (s : State) :
    (s.dma.dirWrite = false ∧ drqOut s = (none, s.modDma fun d => { d with drq := true, err := true })) ∨
      (s.dma.dirWrite = true ∧ s.dma.sct = 0 ∧ drqOut s = (none, s.modDma fun d => { d with drq := true })) ∨
      (s.dma.dirWrite = true ∧ s.dma.sct ≠ 0 ∧
        drqOut s =
          (some (fillHalf s).dma.current,
            (fillHalf s).modDma fun d => { d.takeByte (fillHalf s).par with drq := false })) := by
  unfold drqOut
  split
  · rename_i hd
    split
    · exact .inr (.inl ⟨hd, ‹_›, rfl⟩)
    · exact .inr (.inr ⟨hd, ‹_›, rfl⟩)
  · rename_i hd
    exact .inl ⟨by simpa using hd, rfl⟩

end Sys2Proof.Machine
end

