-- ==== Sys2Proof/Laws/PerInstr.lean ====
section
/-! SUPPORT. A statement about every instruction, one lemma for each constructor: its bits lie in the encoding space of its
row, a command word with a legal operation code, a callback identity, or an ACSI command block. -/

namespace Sys2Proof.Laws.EncodingSpace

/-- The bits of an instruction are a command word whose OP field is in the opcode map (30_encoding.md R105), a callback
identity below `NCB` (R118), or a command block (R119). -/
def legalSpace (p : Params) (i : Instr) : Bool :=
  match encode p i with
  | .command w => (opOf (Cmd.ofWord w).op).isSome
  | .callback id => id.toNat < p.ncb
  | .acsi _ => true

/-- The statement of the family: under legal parameters, the bits of a well-formed instruction are in a legal space. -/
def Statement (i : Instr) : Prop := ∀ p : Params, p.Ok → i.wf p = true → legalSpace p i = true

/-- A word built from fields has a legal operation code if its OP field has. -/
theorem command_legal (op sel : BitVec 8) (idx : BitVec 16) (param : BitVec 32) (time : BitVec 64)
    (h : (opOf op).isSome = true) : (opOf (Cmd.ofWord (Cmd.toWord ⟨op, sel, idx, param, time⟩)).op).isSome = true := by
  rw [Cmd.ofWord_toWord]
  exact h

/-- A callback identity is legal when it is below `NCB`. -/
theorem callback_legal {p : Params} {i : Instr} {n : Nat} (e : encode p i = .callback (BitVec.ofNat 8 n))
    (h : n < p.ncb) : legalSpace p i = true := by
  have : n % 2 ^ 8 ≤ n := Nat.mod_le _ _
  simp only [legalSpace, e, BitVec.toNat_ofNat, decide_eq_true_eq]
  omega

/-- The identities of the chips are legal: there are nine. -/
theorem chip_legal {i : Instr} (n : Nat) (hn : n < 9) (e : ∀ p, encode p i = .callback (BitVec.ofNat 8 n)) :
    Statement i := by
  intro p h _
  have := h.identities
  exact callback_legal (e p) (by omega)

/-- The fields of a well-formed instruction fit. -/
theorem fields_of_wf {p : Params} {i : Instr} (h : i.wf p = true) : i.fieldsFit p = true := (Bool.and_eq_true _ _ ▸ h).1

theorem nop : Statement .nop := fun _ _ _ => command_legal 0x00 0 0 0 0 rfl

theorem reset : Statement .reset := fun _ _ _ => command_legal 0x01 0 0 0 0 rfl

theorem advance (now : Clock) : Statement (.advance now) := fun _ _ _ => command_legal _ _ _ _ _ rfl

theorem schedule (cb : BitVec 8) (param : Param) (delay : Clock) :
    Statement (.schedule cb param delay) := fun _ _ _ => command_legal _ _ _ _ _ rfl

theorem cancel (cb : BitVec 8) : Statement (.cancel cb) := fun _ _ _ => command_legal _ _ _ _ _ rfl

theorem fireAck (cb : BitVec 8) : Statement (.fireAck cb) := fun _ _ _ => command_legal _ _ _ _ _ rfl

theorem agQuery (cb : BitVec 8) : Statement (.agQuery cb) := fun _ _ _ => command_legal _ _ _ _ _ rfl

theorem cbCreate (buf : BitVec 8) (size : BitVec 32) : Statement (.cbCreate buf size) :=
  fun _ _ _ => command_legal _ _ _ _ _ rfl

theorem cbDestroy (buf : BitVec 8) : Statement (.cbDestroy buf) := fun _ _ _ => command_legal _ _ _ _ _ rfl

theorem cbReset (buf : BitVec 8) : Statement (.cbReset buf) := fun _ _ _ => command_legal _ _ _ _ _ rfl

theorem cbAddbyte (buf : BitVec 8) (byte : Byte) : Statement (.cbAddbyte buf byte) :=
  fun _ _ _ => command_legal _ _ _ _ _ rfl

theorem cbAddbytes (buf : BitVec 8) (len : BitVec 16) (burst : BitVec 96) :
    Statement (.cbAddbytes buf len burst) := fun _ _ _ => command_legal _ _ _ _ _ rfl

theorem cbReadbyte (buf : BitVec 8) : Statement (.cbReadbyte buf) := fun _ _ _ => command_legal _ _ _ _ _ rfl

theorem cbNextbyte (buf : BitVec 8) : Statement (.cbNextbyte buf) := fun _ _ _ => command_legal _ _ _ _ _ rfl

theorem cbArebytes (buf : BitVec 8) : Statement (.cbArebytes buf) := fun _ _ _ => command_legal _ _ _ _ _ rfl

theorem cbCount (buf : BitVec 8) : Statement (.cbCount buf) := fun _ _ _ => command_legal _ _ _ _ _ rfl

theorem regRd (unit : BitVec 8) (reg : BitVec 16) (now : Clock) :
    Statement (.regRd unit reg now) := fun _ _ _ => command_legal _ _ _ _ _ rfl

theorem regWr (unit : BitVec 8) (reg : BitVec 16) (value : BitVec 32) (now : Clock) :
    Statement (.regWr unit reg value now) := fun _ _ _ => command_legal _ _ _ _ _ rfl

theorem aciaRxbyte (inst : BitVec 8) (byte : Byte) (now : Clock) :
    Statement (.aciaRxbyte inst byte now) := fun _ _ _ => command_legal _ _ _ _ _ rfl

theorem fddMount (slot : BitVec 8) (handle : Handle) (singleSided ghost : Bool) :
    Statement (.fddMount slot handle singleSided ghost) := fun _ _ _ => command_legal _ _ _ _ _ rfl

theorem fddUnmount (slot : BitVec 8) : Statement (.fddUnmount slot) := fun _ _ _ => command_legal _ _ _ _ _ rfl

theorem fddMotor (drive : BitVec 8) (on : Bool) (now : Clock) :
    Statement (.fddMotor drive on now) := fun _ _ _ => command_legal _ _ _ _ _ rfl

theorem fddStep (drive : BitVec 8) (dir : Bool) (now : Clock) :
    Statement (.fddStep drive dir now) := fun _ _ _ => command_legal _ _ _ _ _ rfl

theorem fddRead (drive : BitVec 8) (side : Bool) (now : Clock) :
    Statement (.fddRead drive side now) := fun _ _ _ => command_legal _ _ _ _ _ rfl

theorem fddWrite (drive : BitVec 8) (side : Bool) (now : Clock) :
    Statement (.fddWrite drive side now) := fun _ _ _ => command_legal _ _ _ _ _ rfl

theorem fddConv (fn : BitVec 16) (arg : BitVec 32) : Statement (.fddConv fn arg) :=
  fun _ _ _ => command_legal _ _ _ _ _ rfl

theorem acsiAttach (dev : BitVec 8) (handle : Handle) (sectors : BitVec 32) :
    Statement (.acsiAttach dev handle sectors) := fun _ _ _ => command_legal _ _ _ _ _ rfl

theorem acsiDetach (dev : BitVec 8) : Statement (.acsiDetach dev) := fun _ _ _ => command_legal _ _ _ _ _ rfl

theorem regRdEngineCfg (now : Clock) : Statement (.regRdEngineCfg now) := fun _ _ _ => command_legal _ _ _ _ _ rfl

theorem regWrEngineCfg (value : BitVec 8) (now : Clock) :
    Statement (.regWrEngineCfg value now) := fun _ _ _ => command_legal _ _ _ _ _ rfl

theorem regRdEngineStatus (now : Clock) : Statement (.regRdEngineStatus now) := fun _ _ _ => command_legal _ _ _ _ _ rfl

theorem regRdEngineNow (now : Clock) : Statement (.regRdEngineNow now) := fun _ _ _ => command_legal _ _ _ _ _ rfl

theorem regRdEnginePending (now : Clock) : Statement (.regRdEnginePending now) := fun _ _ _ => command_legal _ _ _ _ _ rfl

theorem regWrAcia0Cr (value : BitVec 8) (now : Clock) :
    Statement (.regWrAcia0Cr value now) := fun _ _ _ => command_legal _ _ _ _ _ rfl

theorem regRdAcia0Sr (now : Clock) : Statement (.regRdAcia0Sr now) := fun _ _ _ => command_legal _ _ _ _ _ rfl

theorem regWrAcia0Tdr (value : BitVec 8) (now : Clock) :
    Statement (.regWrAcia0Tdr value now) := fun _ _ _ => command_legal _ _ _ _ _ rfl

theorem regRdAcia0Rdr (now : Clock) : Statement (.regRdAcia0Rdr now) := fun _ _ _ => command_legal _ _ _ _ _ rfl

theorem regRdAcia0Cr (now : Clock) : Statement (.regRdAcia0Cr now) := fun _ _ _ => command_legal _ _ _ _ _ rfl

theorem regRdAcia0Flags (now : Clock) : Statement (.regRdAcia0Flags now) := fun _ _ _ => command_legal _ _ _ _ _ rfl

theorem regRdAcia0Tdrs (now : Clock) : Statement (.regRdAcia0Tdrs now) := fun _ _ _ => command_legal _ _ _ _ _ rfl

theorem regRdAcia0Rdrs (now : Clock) : Statement (.regRdAcia0Rdrs now) := fun _ _ _ => command_legal _ _ _ _ _ rfl

theorem regRdAcia0LastTxWrite (now : Clock) : Statement (.regRdAcia0LastTxWrite now) :=
  fun _ _ _ => command_legal _ _ _ _ _ rfl

theorem regWrAcia1Cr (value : BitVec 8) (now : Clock) :
    Statement (.regWrAcia1Cr value now) := fun _ _ _ => command_legal _ _ _ _ _ rfl

theorem regRdAcia1Sr (now : Clock) : Statement (.regRdAcia1Sr now) := fun _ _ _ => command_legal _ _ _ _ _ rfl

theorem regWrAcia1Tdr (value : BitVec 8) (now : Clock) :
    Statement (.regWrAcia1Tdr value now) := fun _ _ _ => command_legal _ _ _ _ _ rfl

theorem regRdAcia1Rdr (now : Clock) : Statement (.regRdAcia1Rdr now) := fun _ _ _ => command_legal _ _ _ _ _ rfl

theorem regRdAcia1Cr (now : Clock) : Statement (.regRdAcia1Cr now) := fun _ _ _ => command_legal _ _ _ _ _ rfl

theorem regRdAcia1Flags (now : Clock) : Statement (.regRdAcia1Flags now) := fun _ _ _ => command_legal _ _ _ _ _ rfl

theorem regRdAcia1Tdrs (now : Clock) : Statement (.regRdAcia1Tdrs now) := fun _ _ _ => command_legal _ _ _ _ _ rfl

theorem regRdAcia1Rdrs (now : Clock) : Statement (.regRdAcia1Rdrs now) := fun _ _ _ => command_legal _ _ _ _ _ rfl

theorem regRdAcia1LastTxWrite (now : Clock) : Statement (.regRdAcia1LastTxWrite now) :=
  fun _ _ _ => command_legal _ _ _ _ _ rfl

theorem regWrDmaMcr (value : BitVec 16) (now : Clock) :
    Statement (.regWrDmaMcr value now) := fun _ _ _ => command_legal _ _ _ _ _ rfl

theorem regRdDmaStatus (now : Clock) : Statement (.regRdDmaStatus now) := fun _ _ _ => command_legal _ _ _ _ _ rfl

theorem regWrDmaSct (value : BitVec 32) (now : Clock) :
    Statement (.regWrDmaSct value now) := fun _ _ _ => command_legal _ _ _ _ _ rfl

theorem regRdDmaSct (now : Clock) : Statement (.regRdDmaSct now) := fun _ _ _ => command_legal _ _ _ _ _ rfl

theorem regWrDmaAddr (value : Addr) (now : Clock) :
    Statement (.regWrDmaAddr value now) := fun _ _ _ => command_legal _ _ _ _ _ rfl

theorem regRdDmaAddr (now : Clock) : Statement (.regRdDmaAddr now) := fun _ _ _ => command_legal _ _ _ _ _ rfl

theorem regRdDmaBct (now : Clock) : Statement (.regRdDmaBct now) := fun _ _ _ => command_legal _ _ _ _ _ rfl

theorem regRdDmaFifoctl (now : Clock) : Statement (.regRdDmaFifoctl now) := fun _ _ _ => command_legal _ _ _ _ _ rfl

theorem regRdDmaMcr (now : Clock) : Statement (.regRdDmaMcr now) := fun _ _ _ => command_legal _ _ _ _ _ rfl

theorem regRdDmaFifo0 (j : Fin 16) (now : Clock) : Statement (.regRdDmaFifo0 j now) :=
  fun _ _ _ => command_legal _ _ _ _ _ rfl

theorem regRdDmaFifo1 (j : Fin 16) (now : Clock) : Statement (.regRdDmaFifo1 j now) :=
  fun _ _ _ => command_legal _ _ _ _ _ rfl

theorem regRdFddTrack (drive : Fin 2) (now : Clock) :
    Statement (.regRdFddTrack drive now) := fun _ _ _ => command_legal _ _ _ _ _ rfl

theorem regRdFddFlags (drive : Fin 2) (now : Clock) :
    Statement (.regRdFddFlags drive now) := fun _ _ _ => command_legal _ _ _ _ _ rfl

theorem regRdFddBytepos (drive : Fin 2) (now : Clock) :
    Statement (.regRdFddBytepos drive now) := fun _ _ _ => command_legal _ _ _ _ _ rfl

theorem regRdFddCpb (drive : Fin 2) (now : Clock) : Statement (.regRdFddCpb drive now) :=
  fun _ _ _ => command_legal _ _ _ _ _ rfl

theorem regWrFddCpb (drive : Fin 2) (value : BitVec 32) (now : Clock) :
    Statement (.regWrFddCpb drive value now) := fun _ _ _ => command_legal _ _ _ _ _ rfl

theorem regRdFddTlast (drive : Fin 2) (now : Clock) :
    Statement (.regRdFddTlast drive now) := fun _ _ _ => command_legal _ _ _ _ _ rfl

theorem regRdFddTnext (drive : Fin 2) (now : Clock) :
    Statement (.regRdFddTnext drive now) := fun _ _ _ => command_legal _ _ _ _ _ rfl

theorem regRdFddCond (drive : Fin 2) (now : Clock) : Statement (.regRdFddCond drive now) :=
  fun _ _ _ => command_legal _ _ _ _ _ rfl

theorem regRdFdd2Flags (now : Clock) : Statement (.regRdFdd2Flags now) := fun _ _ _ => command_legal _ _ _ _ _ rfl

theorem regWrAcsibusByte (value : BitVec 8) (now : Clock) :
    Statement (.regWrAcsibusByte value now) := fun _ _ _ => command_legal _ _ _ _ _ rfl

theorem regRdAcsibusStatus (now : Clock) : Statement (.regRdAcsibusStatus now) := fun _ _ _ => command_legal _ _ _ _ _ rfl

theorem regRdAcsibusOwner (now : Clock) : Statement (.regRdAcsibusOwner now) := fun _ _ _ => command_legal _ _ _ _ _ rfl

theorem regRdAcsidevPhase (dev : Dev) (now : Clock) :
    Statement (.regRdAcsidevPhase dev now) := fun _ _ _ => command_legal _ _ _ _ _ rfl

theorem regRdAcsidevStatus (dev : Dev) (now : Clock) :
    Statement (.regRdAcsidevStatus dev now) := fun _ _ _ => command_legal _ _ _ _ _ rfl

theorem regRdAcsidevError (dev : Dev) (now : Clock) :
    Statement (.regRdAcsidevError dev now) := fun _ _ _ => command_legal _ _ _ _ _ rfl

theorem regRdAcsidevSectors (dev : Dev) (now : Clock) :
    Statement (.regRdAcsidevSectors dev now) := fun _ _ _ => command_legal _ _ _ _ _ rfl

theorem regRdAcsidevFlags (dev : Dev) (now : Clock) :
    Statement (.regRdAcsidevFlags dev now) := fun _ _ _ => command_legal _ _ _ _ _ rfl

theorem regRdAcsidevCurLba (dev : Dev) (now : Clock) :
    Statement (.regRdAcsidevCurLba dev now) := fun _ _ _ => command_legal _ _ _ _ _ rfl

theorem regRdAcsidevCmd0 (dev : Dev) (now : Clock) :
    Statement (.regRdAcsidevCmd0 dev now) := fun _ _ _ => command_legal _ _ _ _ _ rfl

theorem regRdAcsidevCmd1 (dev : Dev) (now : Clock) :
    Statement (.regRdAcsidevCmd1 dev now) := fun _ _ _ => command_legal _ _ _ _ _ rfl

theorem regRdAcsidevCmd2 (dev : Dev) (now : Clock) :
    Statement (.regRdAcsidevCmd2 dev now) := fun _ _ _ => command_legal _ _ _ _ _ rfl

theorem regRdAcsidevCmd3 (dev : Dev) (now : Clock) :
    Statement (.regRdAcsidevCmd3 dev now) := fun _ _ _ => command_legal _ _ _ _ _ rfl

theorem regRdAcsidevCmd4 (dev : Dev) (now : Clock) :
    Statement (.regRdAcsidevCmd4 dev now) := fun _ _ _ => command_legal _ _ _ _ _ rfl

theorem regRdAcsidevCmd5 (dev : Dev) (now : Clock) :
    Statement (.regRdAcsidevCmd5 dev now) := fun _ _ _ => command_legal _ _ _ _ _ rfl

theorem cbAcia0Tx : Statement .cbAcia0Tx := chip_legal 0 (by decide) fun _ => rfl

theorem cbAcia0Rx : Statement .cbAcia0Rx := chip_legal 1 (by decide) fun _ => rfl

theorem cbAcia1Tx : Statement .cbAcia1Tx := chip_legal 2 (by decide) fun _ => rfl

theorem cbAcia1Rx : Statement .cbAcia1Rx := chip_legal 3 (by decide) fun _ => rfl

theorem cbFdd0Index : Statement .cbFdd0Index := chip_legal 4 (by decide) fun _ => rfl

theorem cbFdd1Index : Statement .cbFdd1Index := chip_legal 5 (by decide) fun _ => rfl

theorem cbFdd0Xfer : Statement .cbFdd0Xfer := chip_legal 6 (by decide) fun _ => rfl

theorem cbFdd1Xfer : Statement .cbFdd1Xfer := chip_legal 7 (by decide) fun _ => rfl

theorem cbAcsiBlock : Statement .cbAcsiBlock := chip_legal 8 (by decide) fun _ => rfl

theorem cbReserved9 : Statement .cbReserved9 := by
  intro p h hw
  have := h.identities
  have hf : 9 < p.ncbInt := of_decide_eq_true (fields_of_wf hw)
  exact callback_legal (n := 9) rfl (by omega)

theorem cbReserved10 (n : Fin 2) : Statement (.cbReserved10 n) := by
  intro p h hw
  have := h.identities
  have hf : 10 + n.val < p.ncbInt := of_decide_eq_true (fields_of_wf hw)
  exact callback_legal (n := 10 + n.val) rfl (by omega)

theorem cbReserved12 (n : Fin 244) : Statement (.cbReserved12 n) := by
  intro p h hw
  have := h.identities
  have hf : 12 + n.val < p.ncbInt := of_decide_eq_true (fields_of_wf hw)
  exact callback_legal (n := 12 + n.val) rfl (by omega)

theorem cbExt (n : CbId) : Statement (.cbExt n) := by
  intro p _ hw
  exact callback_legal (n := p.ncbInt + n.val) rfl (of_decide_eq_true (fields_of_wf hw))

theorem acsiReady (dev : Dev) (lba : BitVec 24) (count ctrl : Byte) :
    Statement (.acsiReady dev lba count ctrl) := fun _ _ _ => rfl

theorem acsiRequestSense (dev : Dev) (lba : BitVec 24) (count ctrl : Byte) :
    Statement (.acsiRequestSense dev lba count ctrl) := fun _ _ _ => rfl

theorem acsiFormat (dev : Dev) (lba : BitVec 24) (count ctrl : Byte) :
    Statement (.acsiFormat dev lba count ctrl) := fun _ _ _ => rfl

theorem acsiRead (dev : Dev) (lba : BitVec 24) (count ctrl : Byte) :
    Statement (.acsiRead dev lba count ctrl) := fun _ _ _ => rfl

theorem acsiWrite (dev : Dev) (lba : BitVec 24) (count ctrl : Byte) :
    Statement (.acsiWrite dev lba count ctrl) := fun _ _ _ => rfl

theorem acsiSeek (dev : Dev) (lba : BitVec 24) (count ctrl : Byte) :
    Statement (.acsiSeek dev lba count ctrl) := fun _ _ _ => rfl

theorem acsiInquiry (dev : Dev) (lba : BitVec 24) (count ctrl : Byte) :
    Statement (.acsiInquiry dev lba count ctrl) := fun _ _ _ => rfl

theorem acsiModeSelect (dev : Dev) (lba : BitVec 24) (count ctrl : Byte) :
    Statement (.acsiModeSelect dev lba count ctrl) := fun _ _ _ => rfl

theorem acsiInvalid (dev : Dev) (op : BitVec 5) (lba : BitVec 24) (count ctrl : Byte) :
    Statement (.acsiInvalid dev op lba count ctrl) := fun _ _ _ => rfl

end Sys2Proof.Laws.EncodingSpace
end

