-- ==== Sys2Proof/Laws/Step.lean ====
section
/-! SUPPORT. Who moves: what the choice between two ports can be, what `fetch` does with it, what is fetched from a port, and
that no instruction changes which port is served or where the free choices stand. -/

namespace Sys2Proof.Machine

/-! ### The choice of the port -/

/-- The favoured port moves while it has turns left, then the other. -/
theorem nextTurn_cases (c : Choices) :
    c.favour = none ∨ (∃ p n, c.favour = some (p, n + 1) ∧ nextTurn c = (p, n)) ∨
      ∃ p, c.favour = some (p, 0) ∧ nextTurn c = (otherPort p, Config.portBurst c.taken) := by
  unfold nextTurn
  split
  · exact .inl ‹_›
  · exact .inr (.inl ⟨_, _, ‹_›, rfl⟩)
  · exact .inr (.inr ⟨_, ‹_›, rfl⟩)

@[simp] theorem Choices.contest_favour (c : Choices) : c.contest.favour = some (nextTurn c) := rfl

@[simp] theorem Choices.contest_taken (c : Choices) : c.contest.taken = c.taken + 1 := rfl

@[simp] theorem otherPort_ne (p : Port) : otherPort p ≠ p := by cases p <;> simp [otherPort]

/-- What a step does: nothing, the work of the only port that has some, or, at a contest, that of the port whose turn it
is. -/
theorem fetch_cases (s : State) :
    (fetchE s = none ∧ fetchX s = none ∧ fetch s = .idle) ∨
      (∃ p w, fetchPort p s = some w ∧ fetchPort (otherPort p) s = none ∧ fetch s = w) ∨
      ((fetchE s).isSome = true ∧ (fetchX s).isSome = true ∧
        fetch s = (fetchPort (nextTurn s.picks).1 { s with picks := s.picks.contest }).getD .idle) := by
  unfold fetch
  split
  · exact .inl ⟨‹_›, ‹_›, rfl⟩
  · exact .inr (.inl ⟨.E, _, ‹_›, ‹_›, rfl⟩)
  · exact .inr (.inl ⟨.X, _, ‹_›, ‹_›, rfl⟩)
  · rename_i hE hX
    exact .inr (.inr ⟨by rw [hE]; rfl, by rw [hX]; rfl, rfl⟩)

/-- Choosing a due entry takes at most a free choice. -/
theorem chooseDue_leaves {s s' : State} {c : CbId} (h : chooseDue s = some (c, s')) :
    ∃ n, s' = { s with picks := { s.picks with taken := n } } := by
  unfold chooseDue at h
  split at h
  · cases h
  · cases h; exact ⟨_, rfl⟩
  · cases h; exact ⟨_, rfl⟩

/-! ### What is fetched from a port -/

/-- The state a port's work is done in, or leaves: that port is served, and the turns stand as they stood. -/
def Work.Serves (p : Port) (c : Choices) : Work → Prop
  | .idle => False
  | .reply t => t.serving = p ∧ t.picks.favour = c.favour
  | .run _ t => t.serving = p ∧ t.picks.favour = c.favour

theorem fetchCommand_serves (q : Port) (w : Word128) (s : State) : (fetchCommand q w s).Serves s.serving s.picks := by
  unfold fetchCommand
  split <;> simp [Work.Serves]

theorem fetchCallback_serves (s : State) : (fetchCallback s).Serves s.serving s.picks := by
  unfold fetchCallback
  split
  · obtain ⟨n, rfl⟩ := chooseDue_leaves ‹_›
    exact ⟨rfl, rfl⟩
  · simp [Work.Serves]

theorem fetchPort_serves {p : Port} {s : State} {w : Work} (h : fetchPort p s = some w) : w.Serves p s.picks := by
  cases p
  · simp only [fetchPort, fetchE] at h
    split at h
    · cases h
      exact fetchCallback_serves _
    · split at h
      · cases h
        exact ⟨rfl, rfl⟩
      · obtain ⟨x, _, rfl⟩ := Option.map_eq_some_iff.1 h
        exact fetchCommand_serves _ _ _
  · obtain ⟨x, _, rfl⟩ := Option.map_eq_some_iff.1 h
    exact fetchCommand_serves _ _ _

/-! ### No instruction changes whose turn it is -/

/-- An answer has the port served and the free choices of a state. -/
def KeepsTurn (s : State) (r : Result) : Prop := ∀ t, r = .next t → t.serving = s.serving ∧ t.picks = s.picks

theorem keepsTurn_next {s u : State} (h1 : u.serving = s.serving) (h2 : u.picks = s.picks) : KeepsTurn s (.next u) := by
  rintro t ⟨⟩
  exact ⟨h1, h2⟩

theorem keepsTurn_respond {s u : State} {flags rcb : BitVec 8} {data : BitVec 32} {time : Clock}
    (h1 : u.serving = s.serving) (h2 : u.picks = s.picks) : KeepsTurn s (respond flags rcb data time u) :=
  keepsTurn_next (by simpa using h1) (by simpa using h2)

theorem keepsTurn_raise {s u : State} {e : ErrCode} (h1 : u.serving = s.serving) (h2 : u.picks = s.picks) :
    KeepsTurn s (raise e u) := keepsTurn_next (by simpa using h1) (by simpa using h2)

theorem keepsTurn_select {n m : Nat} {sel : BitVec 8} {s : State} {body : Fin m → Result}
    (h : ∀ i, KeepsTurn s (body i)) : KeepsTurn s (select n sel s body) := by
  unfold select
  split
  · exact keepsTurn_raise rfl rfl
  · exact h _

theorem keepsTurn_timed {now : Clock} {s : State} {body : State → Result}
    (h : KeepsTurn s (body { s with now := now })) : KeepsTurn s (timed now s body) := by
  unfold timed
  split
  · exact keepsTurn_raise rfl rfl
  · exact h

theorem keepsTurn_critical {b : BufId} {body : CircBuf → CircBuf × Word128} {s : State} :
    KeepsTurn s (critical b body s) := by
  simp only [critical]
  split <;> exact keepsTurn_next (by simp) (by simp)

theorem keepsTurn_dispatchEntry {c : CbId} {body : AgEntry → State → Result} {s : State}
    (h : ∀ e, KeepsTurn s (body e (s.cancel c))) : KeepsTurn s (dispatchEntry c body s) := by
  unfold dispatchEntry
  split
  · exact keepsTurn_next rfl rfl
  · exact h _

theorem keepsTurn_callback {c : CbId} {f : AgEntry → State → State} {s : State}
    (h1 : ∀ e, (f e (s.cancel c)).serving = s.serving) (h2 : ∀ e, (f e (s.cancel c)).picks = s.picks) :
    KeepsTurn s (dispatchEntry c (fun e s => .next (f e s)) s) :=
  keepsTurn_dispatchEntry fun e => keepsTurn_next (h1 e) (h2 e)

theorem keepsTurn_acsiAnswer {s u : State} (h1 : u.serving = s.serving) (h2 : u.picks = s.picks) :
    KeepsTurn s (acsiAnswer u) := keepsTurn_respond h1 h2

theorem keepsTurn_readRule (r : ReadReg) (s : State) : KeepsTurn s (readRule r s) := by
  cases r <;> simp only [readRule, readBytepos] <;> (try split) <;> exact keepsTurn_respond (by simp) (by simp)

theorem keepsTurn_acsiBusWrite (v : Byte) (s : State) : KeepsTurn s (acsiBusWrite v s) := by
  simp only [acsiBusWrite]
  repeat' split
  all_goals first
    | exact keepsTurn_respond (by simp) (by simp)
    | exact keepsTurn_next (by simp) (by simp)

theorem keepsTurn_writeCpb (d : Fin 2) (v : BitVec 32) (s : State) : KeepsTurn s (writeCpb d v s) := by
  unfold writeCpb
  repeat' split
  · exact keepsTurn_raise rfl rfl
  · exact keepsTurn_raise rfl rfl
  · exact keepsTurn_respond rfl rfl

theorem keepsTurn_writeRule (r : WriteReg) (v : BitVec 32) (s : State) : KeepsTurn s (writeRule r v s) := by
  cases r
  case acsibusByte => exact keepsTurn_acsiBusWrite _ _
  case fddCpb => exact keepsTurn_writeCpb _ _ _
  all_goals exact keepsTurn_respond (by simp) (by simp)

theorem keepsTurn_readRegister (r : ReadReg) (now : Clock) (s : State) : KeepsTurn s (readRegister r now s) :=
  keepsTurn_timed (keepsTurn_readRule r { s with now := now })

theorem keepsTurn_writeRegister (r : WriteReg) (v : BitVec 32) (now : Clock) (s : State) :
    KeepsTurn s (writeRegister r v now s) := by
  unfold writeRegister
  split
  · exact keepsTurn_timed (keepsTurn_writeRule r v { s with now := now })
  · exact keepsTurn_raise rfl rfl

theorem keepsTurn_external {cb : BitVec 8} {s : State} {body : CbId → Result} (h : ∀ c, KeepsTurn s (body c)) :
    KeepsTurn s (external cb s body) := by
  refine keepsTurn_select fun c => ?_
  split
  · exact keepsTurn_raise rfl rfl
  · exact h c

theorem keepsTurn_onBuffer {buf : BitVec 8} {body : CircBuf → CircBuf × Word128} {s : State} :
    KeepsTurn s (onBuffer buf body s) := keepsTurn_select fun _ => keepsTurn_critical

theorem keepsTurn_atSector {d : Fin 2} {side : Bool} {s : State} {body : Handle → Sector → Nat → State → Result}
    (h : ∀ hd n z u, u.serving = s.serving → u.picks = s.picks → KeepsTurn s (body hd n z u)) :
    KeepsTurn s (atSector d side s body) := by
  simp only [atSector]
  repeat' split
  all_goals first
    | exact keepsTurn_raise (by simp) (by simp)
    | exact h _ _ _ _ (by simp) (by simp)

theorem keepsTurn_respondTransfer {d : Fin 2} {n : Sector} {z : Nat} {s u : State} (h1 : u.serving = s.serving)
    (h2 : u.picks = s.picks) : KeepsTurn s (respondTransfer d n z u) :=
  keepsTurn_respond (by simpa using h1) (by simpa using h2)

theorem keepsTurn_execCbCreate (buf : BitVec 8) (size : BitVec 32) (s : State) : KeepsTurn s (execCbCreate buf size s) :=
  keepsTurn_select fun _ => by
    split
    · exact keepsTurn_raise rfl rfl
    · exact keepsTurn_critical

theorem keepsTurn_execCbAddbytes (buf : BitVec 8) (len : BitVec 16) (burst : BitVec 96) (s : State) :
    KeepsTurn s (execCbAddbytes buf len burst s) :=
  keepsTurn_select fun _ => by
    split
    · exact keepsTurn_raise rfl rfl
    · exact keepsTurn_critical

theorem keepsTurn_execAdvance (now : Clock) (s : State) : KeepsTurn s (execAdvance now s) := by
  unfold execAdvance
  split
  · exact keepsTurn_timed (keepsTurn_next rfl rfl)
  · exact keepsTurn_raise rfl rfl

theorem keepsTurn_execFireAck (cb : BitVec 8) (s : State) : KeepsTurn s (execFireAck cb s) :=
  keepsTurn_external fun _ => by
    split
    · exact keepsTurn_raise rfl rfl
    · exact keepsTurn_next rfl rfl

theorem keepsTurn_execAgQuery (cb : BitVec 8) (s : State) : KeepsTurn s (execAgQuery cb s) :=
  keepsTurn_select fun _ => by split <;> exact keepsTurn_respond rfl rfl

theorem keepsTurn_execRegRd (unit : BitVec 8) (reg : BitVec 16) (now : Clock) (s : State) :
    KeepsTurn s (execRegRd unit reg now s) := by
  unfold execRegRd
  split
  · exact keepsTurn_readRegister _ _ _
  · unfold noRegister
    split <;> exact keepsTurn_raise rfl rfl

theorem keepsTurn_execRegWr (unit : BitVec 8) (reg : BitVec 16) (v : BitVec 32) (now : Clock) (s : State) :
    KeepsTurn s (execRegWr unit reg v now s) := by
  unfold execRegWr
  split
  · exact keepsTurn_writeRegister _ _ _ _
  · unfold noRegister
    split <;> exact keepsTurn_raise rfl rfl

theorem keepsTurn_execAciaRxbyte (inst : BitVec 8) (byte : Byte) (now : Clock) (s : State) :
    KeepsTurn s (execAciaRxbyte inst byte now s) :=
  keepsTurn_select fun _ => keepsTurn_timed <| by
    split
    · exact keepsTurn_raise rfl rfl
    · exact keepsTurn_respond (by simp) (by simp)

theorem keepsTurn_execFddMount (slot : BitVec 8) (h : Handle) (ss ghost : Bool) (s : State) :
    KeepsTurn s (execFddMount slot h ss ghost s) :=
  keepsTurn_select fun _ => by
    split
    · exact keepsTurn_raise rfl rfl
    · exact keepsTurn_respond rfl rfl

theorem keepsTurn_execFddUnmount (slot : BitVec 8) (s : State) : KeepsTurn s (execFddUnmount slot s) :=
  keepsTurn_select fun _ => by
    split
    · exact keepsTurn_raise rfl rfl
    · exact keepsTurn_respond rfl rfl

theorem keepsTurn_execFddMotor (drive : BitVec 8) (on : Bool) (now : Clock) (s : State) :
    KeepsTurn s (execFddMotor drive on now s) :=
  keepsTurn_select fun _ => keepsTurn_timed <| by
    simp only
    repeat' split
    · exact keepsTurn_respond rfl rfl
    · exact keepsTurn_respond rfl rfl
    · exact keepsTurn_raise rfl rfl
    · exact keepsTurn_respond rfl rfl

theorem keepsTurn_execFddStep (drive : BitVec 8) (dir : Bool) (now : Clock) (s : State) :
    KeepsTurn s (execFddStep drive dir now s) :=
  keepsTurn_select fun _ => keepsTurn_timed <| by
    simp only
    split
    · exact keepsTurn_raise rfl rfl
    · exact keepsTurn_respond (by simp) (by simp)

theorem keepsTurn_execFddRead (drive : BitVec 8) (side : Bool) (now : Clock) (s : State) :
    KeepsTurn s (execFddRead drive side now s) :=
  keepsTurn_select fun _ => keepsTurn_timed <| keepsTurn_atSector fun _ _ _ _ h1 h2 => by
    simp only
    split
    · exact keepsTurn_raise (by simpa using h1) (by simpa using h2)
    · exact keepsTurn_respondTransfer (by simpa using h1) (by simpa using h2)

theorem keepsTurn_execFddWrite (drive : BitVec 8) (side : Bool) (now : Clock) (s : State) :
    KeepsTurn s (execFddWrite drive side now s) :=
  keepsTurn_select fun _ => keepsTurn_timed <| keepsTurn_atSector fun _ _ _ _ h1 h2 =>
    keepsTurn_respondTransfer (by simpa using h1) (by simpa using h2)

theorem keepsTurn_execFddConv (fn : BitVec 16) (arg : BitVec 32) (s : State) : KeepsTurn s (execFddConv fn arg s) := by
  unfold execFddConv
  repeat' split
  · exact keepsTurn_raise rfl rfl
  · exact keepsTurn_respond rfl rfl
  · exact keepsTurn_raise rfl rfl

theorem keepsTurn_execAcsiAttach (dev : BitVec 8) (h : Handle) (n : BitVec 32) (s : State) :
    KeepsTurn s (execAcsiAttach dev h n s) :=
  keepsTurn_select fun _ => by
    split
    · exact keepsTurn_raise rfl rfl
    · exact keepsTurn_respond rfl rfl

theorem keepsTurn_execAcsiDetach (dev : BitVec 8) (s : State) : KeepsTurn s (execAcsiDetach dev s) :=
  keepsTurn_select fun _ => by
    split
    · exact keepsTurn_raise rfl rfl
    · exact keepsTurn_respond rfl rfl

theorem keepsTurn_execAcsiSeek (k : Dev) (lba : BitVec 24) (count ctrl : Byte) (s : State) :
    KeepsTurn s (execAcsiSeek k lba count ctrl s) := by
  simp only [execAcsiSeek]
  split <;> exact keepsTurn_acsiAnswer (by simp) (by simp)

/-- No instruction, whatever it does, changes which port is served or where the free choices stand. -/
theorem exec_keepsTurn (i : Instr) (s : State) : KeepsTurn s (exec i s) := by
  cases i
  case nop => exact keepsTurn_respond rfl rfl
  case reset => exact keepsTurn_respond rfl rfl
  case advance => exact keepsTurn_execAdvance _ _
  case schedule => exact keepsTurn_external fun _ => keepsTurn_respond rfl rfl
  case cancel => exact keepsTurn_external fun _ => keepsTurn_respond rfl rfl
  case fireAck => exact keepsTurn_execFireAck _ _
  case agQuery => exact keepsTurn_execAgQuery _ _
  case cbCreate => exact keepsTurn_execCbCreate _ _ _
  case cbDestroy => exact keepsTurn_select fun _ => keepsTurn_critical
  case cbReset => exact keepsTurn_select fun _ => keepsTurn_critical
  case cbAddbyte => exact keepsTurn_onBuffer
  case cbAddbytes => exact keepsTurn_execCbAddbytes _ _ _ _
  case cbReadbyte => exact keepsTurn_onBuffer
  case cbNextbyte => exact keepsTurn_onBuffer
  case cbArebytes => exact keepsTurn_onBuffer
  case cbCount => exact keepsTurn_onBuffer
  case regRd => exact keepsTurn_execRegRd _ _ _ _
  case regWr => exact keepsTurn_execRegWr _ _ _ _ _
  case aciaRxbyte => exact keepsTurn_execAciaRxbyte _ _ _ _
  case fddMount => exact keepsTurn_execFddMount _ _ _ _ _
  case fddUnmount => exact keepsTurn_execFddUnmount _ _
  case fddMotor => exact keepsTurn_execFddMotor _ _ _ _
  case fddStep => exact keepsTurn_execFddStep _ _ _ _
  case fddRead => exact keepsTurn_execFddRead _ _ _ _
  case fddWrite => exact keepsTurn_execFddWrite _ _ _ _
  case fddConv => exact keepsTurn_execFddConv _ _ _
  case acsiAttach => exact keepsTurn_execAcsiAttach _ _ _ _
  case acsiDetach => exact keepsTurn_execAcsiDetach _ _
  case acsiReady => exact keepsTurn_acsiAnswer (by simp) (by simp)
  case acsiRequestSense => exact keepsTurn_acsiAnswer (by simp) (by simp)
  case acsiFormat => exact keepsTurn_acsiAnswer (by simp) (by simp)
  case acsiRead => exact keepsTurn_acsiAnswer (by simp) (by simp)
  case acsiWrite => exact keepsTurn_acsiAnswer (by simp) (by simp)
  case acsiSeek k lba count ctrl => exact keepsTurn_execAcsiSeek k lba count ctrl s
  case acsiInquiry => exact keepsTurn_acsiAnswer (by simp) (by simp)
  case acsiModeSelect => exact keepsTurn_acsiAnswer (by simp) (by simp)
  case acsiInvalid => exact keepsTurn_acsiAnswer (by simp) (by simp)
  case cbAcia0Tx => exact keepsTurn_callback (by simp) (by simp)
  case cbAcia0Rx => exact keepsTurn_callback (by simp) (by simp)
  case cbAcia1Tx => exact keepsTurn_callback (by simp) (by simp)
  case cbAcia1Rx => exact keepsTurn_callback (by simp) (by simp)
  case cbFdd0Index => exact keepsTurn_callback (by simp) (by simp)
  case cbFdd1Index => exact keepsTurn_callback (by simp) (by simp)
  case cbFdd0Xfer => exact keepsTurn_callback (by simp) (by simp)
  case cbFdd1Xfer => exact keepsTurn_callback (by simp) (by simp)
  case cbAcsiBlock => exact keepsTurn_callback (by simp) (by simp)
  case cbReserved9 => exact keepsTurn_callback (f := fun _ s => s) (fun _ => rfl) (fun _ => rfl)
  case cbReserved10 => exact keepsTurn_callback (f := fun _ s => s) (fun _ => rfl) (fun _ => rfl)
  case cbReserved12 => exact keepsTurn_callback (f := fun _ s => s) (fun _ => rfl) (fun _ => rfl)
  case cbExt => exact keepsTurn_dispatchEntry fun _ => keepsTurn_respond rfl rfl
  all_goals first
    | exact keepsTurn_readRegister _ _ _
    | exact keepsTurn_writeRegister _ _ _ _

end Sys2Proof.Machine
end

