-- ==== Sys2Proof/Tests/Slice0.lean ====
section
/-! SUPPORT. The model's own tests: the checks of WellFormed, words written out from spec/, single steps with the results
of the spec's worked examples, and, for every obligation that has hypotheses, a state and operands that meet them. -/

open Sys2Proof Sys2Proof.Machine

/-- Whether an outcome is a next state with a property. -/
def leads (o : Result) (p : State → Bool) : Bool :=
  match o with
  | .next t => p t
  | .fault _ => false
  | .refused _ => false

/-- A command word as port E's only command. -/
def given (w : Nat) (s : State) : State := s.withFetchWord 128 w

/-- Whether port E's latest answer has these fields. -/
def answered (t : State) (err flags rcb : BitVec 8) (data : BitVec 32) (time : Clock) : Bool :=
  t.portE.replies.getLast? == some (respWord err flags rcb data time)

/-! ### WellFormed: one ill-formed term for each check -/

/-- A burst lane at or above `len` is set (R106). -/
theorem test_wf_burst_lane : (Instr.cbAddbytes 0 1 0x0201).wf .default = false := by decide
/-- The argument of conversion 0 must be zero (R278). -/
theorem test_wf_conversion_argument : (Instr.fddConv 0 1).wf .default = false := by decide
/-- ACIA0.SR has a row of its own (R112). -/
theorem test_wf_read_row : (Instr.regRd 1 0 0).wf .default = false := by decide
/-- DMA.SCT has a row of its own (R113). -/
theorem test_wf_write_row : (Instr.regWr 3 1 7 0).wf .default = false := by decide
/-- Only bit 0 of CFG exists (R145). -/
theorem test_wf_cfg_value : (Instr.regWrEngineCfg 2 0).wf .default = false := by decide
/-- Opcode 0x08 is the read command (R120). -/
theorem test_wf_known_opcode : (Instr.acsiInvalid 3 0x08 0 0 0).wf .default = false := by decide
/-- Well-formed neighbours of the six. -/
theorem test_wf_accepts :
    (Instr.cbAddbytes 0 2 0x0201).wf .default = true ∧ (Instr.fddConv 0 0).wf .default = true ∧
    (Instr.regRd 1 7 0).wf .default = true ∧ (Instr.regWr 3 3 7 0).wf .default = true ∧
    (Instr.regWrEngineCfg 1 0).wf .default = true ∧ (Instr.acsiInvalid 3 0x09 0 0 0).wf .default = true := by decide

/-! ### Decoding: a word of every row, written out from 30_encoding.md R101 to R120 -/

/-- The engine commands and the two register operations as wholes (R105). -/
theorem test_decode_engine_commands :
    decodeTableWord 128 0x00000000000000000000000000000000 = some .nop ∧
    decodeTableWord 128 0x01000000000000000000000000000000 = some .reset ∧
    decodeTableWord 128 0x10000000000000008000000000000007 = some (.advance 0x8000000000000007) ∧
    decodeTableWord 128 0x111f0000deadbeeffffffffffffffffb = some (.schedule 0x1f 0xdeadbeef 0xfffffffffffffffb) ∧
    decodeTableWord 128 0x121f0000000000000000000000000000 = some (.cancel 0x1f) ∧
    decodeTableWord 128 0x131f0000000000000000000000000000 = some (.fireAck 0x1f) ∧
    decodeTableWord 128 0x141f0000000000000000000000000000 = some (.agQuery 0x1f) ∧
    decodeTableWord 128 0x30108001000000008000000000000007 = some (.regRd 0x10 0x8001 0x8000000000000007) ∧
    decodeTableWord 128 0x3110800189abcdef8000000000000007 = some (.regWr 0x10 0x8001 0x89abcdef 0x8000000000000007) := by decide

/-- The CircularBuffer commands (R105, R106). -/
theorem test_decode_buffer_commands :
    decodeTableWord 128 0x20010000000100000000000000000000 = some (.cbCreate 1 0x10000) ∧
    decodeTableWord 128 0x21010000000000000000000000000000 = some (.cbDestroy 1) ∧
    decodeTableWord 128 0x22010000000000000000000000000000 = some (.cbReset 1) ∧
    decodeTableWord 128 0x23010000000000a50000000000000000 = some (.cbAddbyte 1 0xa5) ∧
    decodeTableWord 128 0x2401000c0c0b0a090807060504030201 = some (.cbAddbytes 1 0xc 0xc0b0a090807060504030201) ∧
    decodeTableWord 128 0x25010000000000000000000000000000 = some (.cbReadbyte 1) ∧
    decodeTableWord 128 0x26010000000000000000000000000000 = some (.cbNextbyte 1) ∧
    decodeTableWord 128 0x27010000000000000000000000000000 = some (.cbArebytes 1) ∧
    decodeTableWord 128 0x28010000000000000000000000000000 = some (.cbCount 1) := by decide

/-- The device commands (R105). -/
theorem test_decode_device_commands :
    decodeTableWord 128 0x40010000000000a58000000000000007 = some (.aciaRxbyte 1 0xa5 0x8000000000000007) ∧
    decodeTableWord 128 0x4102beef000000020000000000000000 = some (.fddMount 2 0xbeef false true) ∧
    decodeTableWord 128 0x42020000000000000000000000000000 = some (.fddUnmount 2) ∧
    decodeTableWord 128 0x43010000000000018000000000000007 = some (.fddMotor 1 true 0x8000000000000007) ∧
    decodeTableWord 128 0x44010000000000018000000000000007 = some (.fddStep 1 true 0x8000000000000007) ∧
    decodeTableWord 128 0x45010000000000018000000000000007 = some (.fddRead 1 true 0x8000000000000007) ∧
    decodeTableWord 128 0x46010000000000018000000000000007 = some (.fddWrite 1 true 0x8000000000000007) ∧
    decodeTableWord 128 0x47000002800000640000000000000000 = some (.fddConv 2 0x80000064) ∧
    decodeTableWord 128 0x4807beef800050000000000000000000 = some (.acsiAttach 7 0xbeef 0x80005000) ∧
    decodeTableWord 128 0x49070000000000000000000000000000 = some (.acsiDetach 7) := by decide

/-- The ENGINE registers (R111). -/
theorem test_decode_engine_registers :
    decodeTableWord 128 0x30000000000000008000000000000007 = some (.regRdEngineCfg 0x8000000000000007) ∧
    decodeTableWord 128 0x31000000000000018000000000000007 = some (.regWrEngineCfg 1 0x8000000000000007) ∧
    decodeTableWord 128 0x30000001000000008000000000000007 = some (.regRdEngineStatus 0x8000000000000007) ∧
    decodeTableWord 128 0x30000002000000008000000000000007 = some (.regRdEngineNow 0x8000000000000007) ∧
    decodeTableWord 128 0x30000003000000008000000000000007 = some (.regRdEnginePending 0x8000000000000007) := by decide

/-- The keyboard ACIA's registers (R112). -/
theorem test_decode_acia0_registers :
    decodeTableWord 128 0x31010000000000958000000000000007 = some (.regWrAcia0Cr 0x95 0x8000000000000007) ∧
    decodeTableWord 128 0x30010000000000008000000000000007 = some (.regRdAcia0Sr 0x8000000000000007) ∧
    decodeTableWord 128 0x31010001000000958000000000000007 = some (.regWrAcia0Tdr 0x95 0x8000000000000007) ∧
    decodeTableWord 128 0x30010001000000008000000000000007 = some (.regRdAcia0Rdr 0x8000000000000007) ∧
    decodeTableWord 128 0x30010002000000008000000000000007 = some (.regRdAcia0Cr 0x8000000000000007) ∧
    decodeTableWord 128 0x30010003000000008000000000000007 = some (.regRdAcia0Flags 0x8000000000000007) ∧
    decodeTableWord 128 0x30010004000000008000000000000007 = some (.regRdAcia0Tdrs 0x8000000000000007) ∧
    decodeTableWord 128 0x30010005000000008000000000000007 = some (.regRdAcia0Rdrs 0x8000000000000007) ∧
    decodeTableWord 128 0x30010006000000008000000000000007 = some (.regRdAcia0LastTxWrite 0x8000000000000007) := by decide

/-- The MIDI ACIA's registers (R112). -/
theorem test_decode_acia1_registers :
    decodeTableWord 128 0x31020000000000958000000000000007 = some (.regWrAcia1Cr 0x95 0x8000000000000007) ∧
    decodeTableWord 128 0x30020000000000008000000000000007 = some (.regRdAcia1Sr 0x8000000000000007) ∧
    decodeTableWord 128 0x31020001000000958000000000000007 = some (.regWrAcia1Tdr 0x95 0x8000000000000007) ∧
    decodeTableWord 128 0x30020001000000008000000000000007 = some (.regRdAcia1Rdr 0x8000000000000007) ∧
    decodeTableWord 128 0x30020002000000008000000000000007 = some (.regRdAcia1Cr 0x8000000000000007) ∧
    decodeTableWord 128 0x30020003000000008000000000000007 = some (.regRdAcia1Flags 0x8000000000000007) ∧
    decodeTableWord 128 0x30020004000000008000000000000007 = some (.regRdAcia1Tdrs 0x8000000000000007) ∧
    decodeTableWord 128 0x30020005000000008000000000000007 = some (.regRdAcia1Rdrs 0x8000000000000007) ∧
    decodeTableWord 128 0x30020006000000008000000000000007 = some (.regRdAcia1LastTxWrite 0x8000000000000007) := by decide

/-- The DMA registers (R113). -/
theorem test_decode_dma_registers :
    decodeTableWord 128 0x31030000000081008000000000000007 = some (.regWrDmaMcr 0x8100 0x8000000000000007) ∧
    decodeTableWord 128 0x30030000000000008000000000000007 = some (.regRdDmaStatus 0x8000000000000007) ∧
    decodeTableWord 128 0x31030001000000958000000000000007 = some (.regWrDmaSct 0x95 0x8000000000000007) ∧
    decodeTableWord 128 0x30030001000000008000000000000007 = some (.regRdDmaSct 0x8000000000000007) ∧
    decodeTableWord 128 0x3103000200abcdef8000000000000007 = some (.regWrDmaAddr 0xabcdef 0x8000000000000007) ∧
    decodeTableWord 128 0x30030002000000008000000000000007 = some (.regRdDmaAddr 0x8000000000000007) ∧
    decodeTableWord 128 0x30030003000000008000000000000007 = some (.regRdDmaBct 0x8000000000000007) ∧
    decodeTableWord 128 0x30030004000000008000000000000007 = some (.regRdDmaFifoctl 0x8000000000000007) ∧
    decodeTableWord 128 0x30030005000000008000000000000007 = some (.regRdDmaMcr 0x8000000000000007) ∧
    decodeTableWord 128 0x3003001d000000008000000000000007 = some (.regRdDmaFifo0 0xd 0x8000000000000007) ∧
    decodeTableWord 128 0x3003002d000000008000000000000007 = some (.regRdDmaFifo1 0xd 0x8000000000000007) := by decide

/-- The floppy registers (R114). -/
theorem test_decode_floppy_registers :
    decodeTableWord 128 0x30050000000000008000000000000007 = some (.regRdFddTrack 1 0x8000000000000007) ∧
    decodeTableWord 128 0x30050001000000008000000000000007 = some (.regRdFddFlags 1 0x8000000000000007) ∧
    decodeTableWord 128 0x30050002000000008000000000000007 = some (.regRdFddBytepos 1 0x8000000000000007) ∧
    decodeTableWord 128 0x30050003000000008000000000000007 = some (.regRdFddCpb 1 0x8000000000000007) ∧
    decodeTableWord 128 0x3105000389abcdef8000000000000007 = some (.regWrFddCpb 1 0x89abcdef 0x8000000000000007) ∧
    decodeTableWord 128 0x30050004000000008000000000000007 = some (.regRdFddTlast 1 0x8000000000000007) ∧
    decodeTableWord 128 0x30050005000000008000000000000007 = some (.regRdFddTnext 1 0x8000000000000007) ∧
    decodeTableWord 128 0x30050006000000008000000000000007 = some (.regRdFddCond 1 0x8000000000000007) ∧
    decodeTableWord 128 0x30060001000000008000000000000007 = some (.regRdFdd2Flags 0x8000000000000007) := by decide

/-- The ACSI registers (R115, R116). -/
theorem test_decode_acsi_registers :
    decodeTableWord 128 0x31070000000000958000000000000007 = some (.regWrAcsibusByte 0x95 0x8000000000000007) ∧
    decodeTableWord 128 0x30070000000000008000000000000007 = some (.regRdAcsibusStatus 0x8000000000000007) ∧
    decodeTableWord 128 0x30070001000000008000000000000007 = some (.regRdAcsibusOwner 0x8000000000000007) ∧
    decodeTableWord 128 0x300d0000000000008000000000000007 = some (.regRdAcsidevPhase 5 0x8000000000000007) ∧
    decodeTableWord 128 0x300d0001000000008000000000000007 = some (.regRdAcsidevStatus 5 0x8000000000000007) ∧
    decodeTableWord 128 0x300d0002000000008000000000000007 = some (.regRdAcsidevError 5 0x8000000000000007) ∧
    decodeTableWord 128 0x300d0003000000008000000000000007 = some (.regRdAcsidevSectors 5 0x8000000000000007) ∧
    decodeTableWord 128 0x300d0004000000008000000000000007 = some (.regRdAcsidevFlags 5 0x8000000000000007) ∧
    decodeTableWord 128 0x300d0005000000008000000000000007 = some (.regRdAcsidevCurLba 5 0x8000000000000007) ∧
    decodeTableWord 128 0x300d0008000000008000000000000007 = some (.regRdAcsidevCmd0 5 0x8000000000000007) ∧
    decodeTableWord 128 0x300d0009000000008000000000000007 = some (.regRdAcsidevCmd1 5 0x8000000000000007) ∧
    decodeTableWord 128 0x300d000a000000008000000000000007 = some (.regRdAcsidevCmd2 5 0x8000000000000007) ∧
    decodeTableWord 128 0x300d000b000000008000000000000007 = some (.regRdAcsidevCmd3 5 0x8000000000000007) ∧
    decodeTableWord 128 0x300d000c000000008000000000000007 = some (.regRdAcsidevCmd4 5 0x8000000000000007) ∧
    decodeTableWord 128 0x300d000d000000008000000000000007 = some (.regRdAcsidevCmd5 5 0x8000000000000007) := by decide

/-- The callback identities (R118). -/
theorem test_decode_callbacks :
    decodeTableWord 8 0x00 = some .cbAcia0Tx ∧
    decodeTableWord 8 0x01 = some .cbAcia0Rx ∧
    decodeTableWord 8 0x02 = some .cbAcia1Tx ∧
    decodeTableWord 8 0x03 = some .cbAcia1Rx ∧
    decodeTableWord 8 0x04 = some .cbFdd0Index ∧
    decodeTableWord 8 0x05 = some .cbFdd1Index ∧
    decodeTableWord 8 0x06 = some .cbFdd0Xfer ∧
    decodeTableWord 8 0x07 = some .cbFdd1Xfer ∧
    decodeTableWord 8 0x08 = some .cbAcsiBlock ∧
    decodeTableWord 8 0x09 = some .cbReserved9 ∧
    decodeTableWord 8 0x0b = some (.cbReserved10 1) ∧
    decodeTableWord 8 0x0f = some (.cbReserved12 3) ∧
    decodeTableWord 8 0x1f = some (.cbExt 15) := by decide

/-- The ACSI command blocks, byte 0 first (R119, R120). -/
theorem test_decode_acsi_blocks :
    decodeTableWord 48 0x0012345680fe = some (.acsiReady 0 0x123456 0x80 0xfe) ∧
    decodeTableWord 48 0x2312345681fe = some (.acsiRequestSense 1 0x123456 0x81 0xfe) ∧
    decodeTableWord 48 0x4412345682fe = some (.acsiFormat 2 0x123456 0x82 0xfe) ∧
    decodeTableWord 48 0x6812345683fe = some (.acsiRead 3 0x123456 0x83 0xfe) ∧
    decodeTableWord 48 0x8a12345684fe = some (.acsiWrite 4 0x123456 0x84 0xfe) ∧
    decodeTableWord 48 0xab12345685fe = some (.acsiSeek 5 0x123456 0x85 0xfe) ∧
    decodeTableWord 48 0xd212345686fe = some (.acsiInquiry 6 0x123456 0x86 0xfe) ∧
    decodeTableWord 48 0xf512345687fe = some (.acsiModeSelect 7 0x123456 0x87 0xfe) ∧
    decodeTableWord 48 0xffff00010203 = some (.acsiInvalid 7 0x1f 0xff0001 2 3) ∧
    decodeTableWord 48 0x61ff00010203 = some (.acsiInvalid 3 0x01 0xff0001 2 3) := by decide
/-- Words that are refused: an unknown operation, a must-be-zero bit, a value above its register's width, CFG above 1
(R102, R108, R144, R145). -/
theorem test_decode_refusals :
    decode .default .E 0x02000000000000000000000000000000 = .error .illegalOp ∧
    decode .default .E 0x00000000000000000000000000000001 = .error .reserved ∧
    decode .default .E 0x31030000000100000000000000000000 = .error .reserved ∧
    decode .default .E 0x31000000000000020000000000000000 = .error .reserved ∧
    decode .default .E 0x24000001000000000000000000000100 = .error .reserved ∧
    decode .default .X 0x10000000000000000000000000000000 = .error .priv ∧
    decode .default .X 0xFF000000000000000000000000000000 = .error .illegalOp := by
  refine ⟨?_, ?_, ?_, ?_, ?_, ?_, ?_⟩ <;> rfl

/-! ### Parameters that are not the defaults (00_scope.md R8) -/

/-- The defaults are legal. -/
theorem test_default_ok : Params.default.Ok := by constructor <;> decide

/-- A small machine: narrower times, params, counters and addresses, other counts of identities, buffers and devices. -/
def small : Params :=
  { Params.default with
    cw := 8, pw := 5, ncb := 24, ncbInt := 20, nbuf := 3, cbBurstMax := 4, dmaSctW := 4, dmaAddrW := 10, acsiNdev := 4
    acsiBlockCycles := 100 }

theorem test_small_ok : small.Ok := by constructor <;> decide

/-- R114, R330: a track of 0 bytes, and one whose positions do not fit the 16 bits of BYTEPOS, are not legal. -/
theorem test_track_lengths :
    ¬({ Params.default with fddBytesPerTrack := 0 } : Params).Ok ∧
    ¬({ Params.default with fddBytesPerTrack := 65537 } : Params).Ok :=
  ⟨fun h => absurd h.track.1 (by decide), fun h => absurd h.track.2 (by decide)⟩

/-- 10_state.md R30: a CB_MAXCAP that needs an eighteenth bit is not legal; the largest that does not, is. -/
theorem test_capacity_width :
    ¬({ Params.default with cbMaxcap := 131072 } : Params).Ok ∧ ({ Params.default with cbMaxcap := 131071 } : Params).Ok :=
  ⟨fun h => absurd h.capacity (by decide), by constructor <;> decide⟩

/-- R392: reset values that are not the spec's own. -/
def otherReset : Params :=
  { Params.default with
    clockReset := 7, cfgReset := 0
    reset := { ResetValues.default with
      aciaCr := 0x15, aciaTdr := 5, aciaClockDivide := .by16, dma := { Dma.reset with addr := 0x1000 }, fddTrack := 3
      acsiDev := 2 } }

theorem test_other_reset_ok : otherReset.Ok := by constructor <;> decide

/-- R392, R139: RESET leaves them, whatever stood there, and beside them what the source states. -/
theorem test_other_reset :
    leads (exec .reset { State.cold otherReset with acia := State.reset.acia, dma := { Dma.reset with sct := 9 } })
      (fun t => (t.acia[0]).cr == 0x15 && (t.acia[1]).tdr == 5 && (t.acia[1]).clockDivide == .by16 && t.dma.sct == 0 &&
        t.dma.addr == 0x1000 && (t.fdd[1]).track == 3 && t.acsiDev == 2 && t.now == 7 && t.cfg == 0 &&
        (t.acia[0]).sr == 0x02 && (t.acsi[2]).phase == 7 && (t.cb[0]).cap == 0) = true := by decide

/-- R391: a motor that turns after reset is not legal. -/
theorem test_reset_idle :
    ¬({ Params.default with reset := { ResetValues.default with fddMotor := true } } : Params).Ok :=
  fun h => absurd h.resetDrive.1 (by decide)

/-- R13, R330: eight-bit times wrap at 256, and 128 apart are -128 apart both ways; ten-bit addresses wrap at 1024 (R74). -/
theorem test_small_arithmetic :
    small.tadd 250 10 = 4 ∧ small.sdiff 4 250 = 10 ∧ small.sdiff 250 4 = -10 ∧ small.sdiff 128 0 = -128 ∧
    small.sdiff 0 128 = -128 ∧ small.addrAt 1023 1 = 0 := by decide

/-- R101, R102, R113: the bits of TIME, PARAM and a register's value above the widths are checked; unit 12 has no device. -/
theorem test_small_decode :
    decode small .E 0x100000000000000000000000000000ff = .ok (.advance 0xff) ∧
    decode small .E 0x10000000000000000000000000000100 = .error .reserved ∧
    decode small .E 0x111400000000001ffffffffffffffffb = .ok (.schedule 20 0x1f 0xfb) ∧
    decode small .E 0x11140000000000200000000000000005 = .error .reserved ∧
    decode small .E 0x111400000000000100000000000000fb = .error .reserved ∧
    decode small .E 0x310300010000000f0000000000000000 = .ok (.regWrDmaSct 0xf 0) ∧
    decode small .E 0x31030001000000100000000000000000 = .error .reserved ∧
    decode small .E 0x300c0000000000000000000000000000 = .ok (.regRd 12 0 0) := by
  refine ⟨?_, ?_, ?_, ?_, ?_, ?_, ?_, ?_⟩ <;> rfl

/-- R118: identities below `NCB_INT` are internal, those from there to `NCB` the host's. -/
theorem test_small_identities :
    decodeCallback small 8 = some .cbAcsiBlock ∧ decodeCallback small 19 = some (.cbReserved12 7) ∧
    decodeCallback small 20 = some (.cbExt 0) ∧ decodeCallback small 23 = some (.cbExt 3) ∧
    decodeCallback small 24 = none := by decide

/-! ### Single steps, with the results of the spec's examples -/

/-- A pending external entry, identity 16, at a time. -/
def withEntry (c : CbId) (fire : Clock) (param : Param) (s : State) : State :=
  { s with ag := s.ag.set c (some { fireTime := fire, param := param }) }

/-- A buffer in place of buffer 0. -/
def withBuffer (c : CircBuf) (s : State) : State := { s with cb := s.cb.set 0 c }

/-- A live buffer that holds nothing special: capacity 4, cursors as given, slots 0xA0 to 0xA3. -/
def buffer4 (rd wr : Nat) : CircBuf :=
  { cap := 4, store := [some 0xA0, some 0xA1, some 0xA2, some 0xA3], rd := rd, wr := wr, mx := false }

/-- R138. -/
theorem test_nop : leads (step (given 0 .reset)) (fun t => answered t 0 1 0 0 0 && t.now == 0) = true := by decide

/-- R136: a delay of -5 at 1000 fires at 995. -/
theorem test_schedule_negative_delay :
    leads (step (given 0x1111000000000000FFFFFFFFFFFFFFFB { State.reset with now := 1000 }))
      (fun t => answered t 0 3 0 0 995 && t.ag[17] == some { fireTime := 995, param := 0 }) = true := by decide

/-- R140. -/
theorem test_cancel_reports_the_entry :
    leads (step (given 0x12100000000000000000000000000000 (withEntry 16 10 0 .reset)))
      (fun t => answered t 0 3 0 0 0 && t.ag[16] == none) = true := by decide

/-- R142. -/
theorem test_query_entry :
    leads (step (given 0x14100000000000000000000000000000 (withEntry 16 100 7 .reset)))
      (fun t => answered t 0 3 0 7 100) = true := by decide

/-- R139: whatever `NOW` and the pins were. -/
theorem test_reset_command :
    leads (step (given 0x01000000000000000000000000000000
        { State.reset with now := 77, cfg := 0, pins := { kbd := true, midi := false, disk := true } }))
      (fun t => answered t 0 1 0 0 0 && t.now == 0 && t.cfg == 1 && !t.pins.kbd && !t.pins.disk) = true := by decide

/-- R133: ADVANCE starts the loop at its own `now`. -/
theorem test_advance_starts :
    leads (step (given 0x10000000000000000000000000000063 .reset))
      (fun t => t.disp == .scan && t.advTarget == 99 && t.now == 99) = true := by decide

/-- R133: the loop ends when entry 16 is due at 100 and the target is 99. -/
theorem test_loop_ends_before_the_entry :
    leads (step { withEntry 16 100 7 (given 0x10000000000000000000000000000063 .reset) with
        now := 99, advTarget := 99, disp := .scan })
      (fun t => answered t 0 1 0 0 0 && t.disp == .idle && (t.ag[16]).isSome) = true := by decide

/-- R133: at 100 it is handed to the host. -/
theorem test_external_entry_is_handed_out :
    leads (step { withEntry 16 100 7 (given 0x10000000000000000000000000000064 .reset) with
        now := 100, advTarget := 100, disp := .scan })
      (fun t => answered t 0 7 16 7 100 && t.disp == .waitAck && t.fireCb == 16 && t.ag[16] == none
        && t.trace == [.fire 16 7 100]) = true := by decide

/-- R8, R13: under eight-bit times, 100 cycles after 200 is 44; identity 19 is internal, buffer 2 exists, a burst has at
most 4 bytes, device 4 does not exist. -/
theorem test_small_steps :
    leads (exec (.schedule 20 7 100) { State.cold small with now := 200 })
      (fun t => t.ag[20] == some { fireTime := 44, param := 7 }) = true ∧
    leads (exec (.schedule 19 7 100) (State.cold small)) (fun t => answered t 3 0 0 0 0) = true ∧
    leads (exec (.cbCreate 2 4) (State.cold small)) (fun t => (t.cb[2]).cap == 4) = true ∧
    leads (exec (.cbAddbytes 2 5 0) (State.cold small)) (fun t => answered t 0x0a 0 0 0 0) = true ∧
    leads (exec (.acsiAttach 4 1 1) (State.cold small)) (fun t => answered t 4 0 0 0 0) = true := by decide

/-- R408, R330: a rotation of 1600000 cycles does not stay below half the range of eight-bit times, and one of 64-bit times
does; nor does a byte of 144 cycles. -/
theorem test_chip_delays :
    (chipDelays (.fddMotor 0 true 0) (State.cold small)).all (fun n => decide (n < 2 ^ (small.cw - 1))) = false ∧
    (chipDelays (.fddMotor 0 true 0) .reset).all (fun n => decide (n < 2 ^ (Params.default.cw - 1))) = true ∧
    (chipDelays (.regWr 2 1 0x41 0) (State.cold small)).all (fun n => decide (n < 2 ^ (small.cw - 1))) = false := by decide

/-- R141: FIRE_ACK of another identity. -/
theorem test_fire_ack_of_another :
    leads (step (given 0x13110000000000000000000000000000 .reset)) (fun t => answered t 8 0 0 0 0) = true := by decide

/-- R164: a size of 1 fails and leaves the buffer. -/
theorem test_create_too_small :
    leads (step (given 0x20000000000000010000000000000000 (withBuffer (buffer4 0 2) .reset)))
      (fun t => answered t 0x0a 0 0 0 0 && t.cb[0] == buffer4 0 2) = true := by decide

/-- R164: a size of 4 gives an empty buffer. -/
theorem test_create :
    leads (step (given 0x20000000000000040000000000000000 .reset))
      (fun t => answered t 0 1 0 0 0 && t.cb[0] == { cap := 4, store := [none, none, none, none], rd := 0, wr := 1, mx := false })
      = true := by decide

/-- R165. -/
theorem test_destroy :
    leads (step (given 0x21000000000000000000000000000000 (withBuffer (buffer4 0 2) .reset)))
      (fun t => answered t 0 1 0 0 0 && t.cb[0] == .cold .default) = true := by decide

/-- R166: emptied, not reallocated. -/
theorem test_buffer_reset :
    leads (step (given 0x22000000000000000000000000000000 (withBuffer (buffer4 2 1) .reset)))
      (fun t => answered t 0 1 0 0 0 && t.cb[0] == buffer4 0 1) = true := by decide

/-- R167: the fourth add to a buffer of capacity 4 loses the oldest byte. -/
theorem test_addbyte_overflow :
    leads (step (given 0x23000000000000A40000000000000000 (withBuffer (buffer4 0 0) .reset)))
      (fun t => answered t 0 0 0 0 0 && (t.cb[0]).rd == 1 && (t.cb[0]).wr == 1
        && (t.cb[0]).content == [some 0xA2, some 0xA3, some 0xA4]) = true := by decide

/-- R168: five bytes over the end of a buffer of capacity 8. -/
theorem test_addbytes_wraps :
    leads (step (given 0x24000005000000000000000504030201
        (withBuffer { cap := 8, store := List.replicate 8 none, rd := 5, wr := 6, mx := false } .reset)))
      (fun t => answered t 0 1 0 0 0 && (t.cb[0]).wr == 3 && (t.cb[0]).count == 5
        && (t.cb[0]).store == [some 3, some 4, some 5, none, none, none, some 1, some 2]) = true := by decide

/-- R170: the oldest byte, nothing moved. -/
theorem test_readbyte :
    leads (step (given 0x25000000000000000000000000000000 (withBuffer (buffer4 1 0) .reset)))
      (fun t => answered t 0 3 0 0xA2 0 && t.cb[0] == buffer4 1 0) = true := by decide

/-- R171: one byte discarded. -/
theorem test_nextbyte :
    leads (step (given 0x26000000000000000000000000000000 (withBuffer (buffer4 1 0) .reset)))
      (fun t => answered t 0 1 0 0 0 && t.cb[0] == buffer4 2 0) = true := by decide

/-- R172: a fresh buffer has no byte. -/
theorem test_arebytes_empty :
    leads (step (given 0x27000000000000000000000000000000 (withBuffer (buffer4 0 1) .reset)))
      (fun t => answered t 0 0 0 0 0) = true := by decide

/-- R173: three bytes in a buffer of capacity 4. -/
theorem test_count :
    leads (step (given 0x28000000000000000000000000000000 (withBuffer (buffer4 0 0) .reset)))
      (fun t => answered t 0 3 0 3 0) = true := by decide

/-- R143: ACIA0.SR after reset. -/
theorem test_read_sr : leads (step (given 0x30010000000000000000000000000000 .reset)) (fun t => answered t 0 3 0 2 0) = true := by
  decide

/-- R197: divide 16 and the transmit interrupt on the MIDI ACIA. -/
theorem test_setcontrol :
    leads (step (given 0x31020000000000350000000000000000 .reset))
      (fun t => (t.acia[1]).cr == 0x35 && (t.acia[1]).clockDivide == .by16 && (t.acia[1]).irq && t.pins.midi
        && (t.acia[1]).sr == 0x82 && t.trace == [.irq .midi true]) = true := by decide

/-- The MIDI ACIA with divide 16. -/
def midi16 (f : Acia → Acia) : State :=
  { State.reset with acia := State.reset.acia.set 1 (f { Acia.cold .default with clockDivide := .by16 }) }

/-- R199: an idle transmitter takes the byte at once. -/
theorem test_tdr_idle :
    leads (step (given 0x310200010000009000000000000003E8 (midi16 id)))
      (fun t => (t.acia[1]).tdr == 0x90 && (t.acia[1]).tdrs == 0x90 && (t.acia[1]).tdre && (t.acia[1]).lineBusyTx
        && (t.acia[1]).lastTxWrite == 1000 && t.ag[2] == some { fireTime := 3304, param := 1 }) = true := by decide

/-- R206: the byte goes out and the line is free. -/
theorem test_tx_done :
    leads (step ((midi16 fun a => { a with tdrs := 0x90, lineBusyTx := true }).withFetchWord 8 2))
      (fun t => t.trace == [.txout 1 0x90] && !(t.acia[1]).lineBusyTx && t.ag[2] == none) = true := by decide

/-- R203: the read clears the interrupt. -/
theorem test_rdr_read :
    leads (step (given 0x30010001000000000000000000000000 { State.reset with
        acia := State.reset.acia.set 0
          { Acia.cold .default with cr := 0x80, rxIrqEn := true, rdr := 0x41, rdrf := true, irq := true }
        pins := { kbd := true, midi := false, disk := false } }))
      (fun t => answered t 0 3 0 0x41 0 && !(t.acia[0]).rdrf && !(t.acia[0]).irq && !t.pins.kbd && (t.acia[0]).rdr == 0x41)
      = true := by decide

/-- R208: divide 64, byte 0x1C. -/
theorem test_rxbyte :
    leads (step (given 0x400000000000001C0000000000000000 { State.reset with
        acia := State.reset.acia.set 0 { Acia.cold .default with clockDivide := .by64 } }))
      (fun t => (t.acia[0]).rdrs == 0x1C && (t.acia[0]).lineBusyRx && t.ag[1] == some { fireTime := 9216, param := 0 }) = true := by
  decide

/-- R194 with ten bits to a frame and a clock tick of eight cycles in place of the defaults: 10 * 64 * 8 cycles. -/
theorem test_rxbyte_other_parameters :
    leads (step (given 0x400000000000001C0000000000000000
        { State.cold { Params.default with aciaFrameBits := 10, aciaClkCycles := 8 } with
          acia := State.reset.acia.set 0 { Acia.cold .default with clockDivide := .by64 } }))
      (fun t => t.ag[1] == some { fireTime := 5120, param := 0 }) = true := by decide

/-- R78: a listed sector exists at its length, an unlisted one does not (log entry 9). -/
theorem test_img_exists :
    (imgExists 1 4 { State.reset with disks := { State.reset.disks with image := [(sectorKey 1 4, [0xE5, 0xE5])] } }).1
      = some 2 ∧ (imgExists 1 5 State.reset).1 = none := by decide

/-- R209: the byte is delivered and the interrupt comes. -/
theorem test_rx_done :
    leads (step (State.withFetchWord { State.reset with
        acia := State.reset.acia.set 0
          { Acia.cold .default with cr := 0x96, rxIrqEn := true, rdrs := 0x1C, lineBusyRx := true } } 8 1))
      (fun t => (t.acia[0]).rdr == 0x1C && (t.acia[0]).rdrf && t.pins.kbd && (t.acia[0]).sr == 0x83) = true := by decide

/-- R233: a change of bit 8 clears the counters. -/
theorem test_mcr_toggle :
    leads (step (given 0x31030000000001000000000000000000 { State.reset with dma := { Dma.reset with sct := 3, err := true } }))
      (fun t => t.dma.mcr == 0x100 && t.dma.sct == 0 && !t.dma.err) = true := by decide

/-- R244: after a count is written the status reads 0x03. -/
theorem test_dma_status :
    leads (step (given 0x30030000000000000000000000000000 { State.reset with dma := { Dma.reset with sct := 2 } }))
      (fun t => answered t 0 3 0 3 0) = true := by decide

/-- R239: the sixteenth byte of the last half of a sector goes to memory with the fifteen before it. -/
theorem test_last_half_of_a_sector :
    (let t := drqIn 0x0F { State.reset with dma := { Dma.reset with
        addr := 0x0201F0, sct := 1, bct := 496, sel := 1, idx := 15
        fifo := Dma.reset.fifo.set 1 #v[0, 1, 2, 3, 4, 5, 6, 7, 8, 9, 10, 11, 12, 13, 14, 0] } }
     Memory.read t.mem 0x0201F1 == 1 && Memory.read t.mem 0x0201FF == 0x0F && t.dma.addr == 0x020200 && t.dma.sel == 0
       && t.dma.bct == 0 && t.dma.sct == 0 && t.dma.status == 0x01) = true := by decide

/-- R240: the first byte of a half fetches sixteen. -/
theorem test_drq_out_fetches :
    (let r := drqOut { State.reset with
        mem := [(0x030000, 0x5A), (0x03000F, 0xA5)], dma := { Dma.reset with mcr := 0x100, sct := 1, addr := 0x030000 } }
     r.1 == some 0x5A && r.2.dma.idx == 1 && r.2.dma.addr == 0x030010 && (r.2.dma.fifo[0])[15] == 0xA5
       && r.2.trace.length == 16) = true := by decide

/-- R262. -/
theorem test_mount :
    leads (step (given 0x41000007000000000000000000000000 .reset))
      (fun t => (t.fdd[0]).disk == some 7 && (t.fdd[0]).flags == 0) = true := by decide

/-- R266: motor on at 1000. -/
theorem test_motor_on :
    leads (step (given 0x430000000000000100000000000003E8 .reset))
      (fun t => (t.fdd[0]).tLast == 1000 && (t.fdd[0]).tNext == 1601000
        && t.ag[4] == some { fireTime := 1601000, param := 0 }) = true := by decide

/-- Drive 0 turning since 1000 with disk 7, whose track 0 has sector 3 all round. -/
def turning (f : Fdd → Fdd) : State :=
  { State.reset with
    fdd := State.reset.fdd.set 0
      (f { Fdd.cold .default with disk := some 7, motor := true, tLast := 1000, tNext := 1601000 })
    disks := { State.reset.disks with
      image := [(sectorKey 7 3, [0xEB, 0x90])]
      layout := [⟨7, 0, false, 0, 6249, 3, 512⟩] } }

/-- R268: the pulse re-arms from its own fire time, though `NOW` is later. -/
theorem test_index_pulse :
    leads (step { withEntry 4 1601000 0 (given 0x100000000000000000000000003059A0 (turning id)) with
        now := 3300000, advTarget := 3300000, disp := .scan })
      (fun t => (t.fdd[0]).tLast == 1601000 && (t.fdd[0]).tNext == 3201000 && t.trace == [.index 0]
        && t.ag[4] == some { fireTime := 3201000, param := 0 }) = true := by decide

/-- R271: a step outward at track 0 stays there. -/
theorem test_step_clamped :
    leads (step (given 0x44000000000000000000000000000000 .reset))
      (fun t => answered t 0 3 0 0 0 && (t.fdd[0]).track == 0 && t.lastStep[0] == some 0) = true := by decide

/-- R271: a step inward. -/
theorem test_step_in :
    leads (step (given 0x44000000000000010000000000000000 .reset))
      (fun t => answered t 0 3 0 1 0 && (t.fdd[0]).track == 1) = true := by decide

/-- R273: the position is 101, sector 3 of 512 bytes completes at 158072. -/
theorem test_fdd_read :
    leads (step (given 0x45000000000000000000000000006978 (turning id)))
      (fun t => answered t 0 3 0 3 158072 && (t.fdd[0]).reading && t.ag[6] == some { fireTime := 158072, param := 0 }
        && t.trace.head? == some (.imgSectorAt 7 0 false 101 (some (3, 512)))) = true := by decide

/-- R274: no data is fetched. -/
theorem test_fdd_write :
    leads (step (given 0x46000000000000000000000000006978 (turning id)))
      (fun t => answered t 0 3 0 3 158072 && (t.fdd[0]).writing && t.trace.length == 1) = true := by decide

/-- R264: no disk. -/
theorem test_fdd_read_no_disk :
    leads (step (given 0x45010000000000000000000000000000 .reset))
      (fun t => answered t 0x0b 0 0 0 0 && (t.fdd[1]).cond == 1) = true := by decide

/-- R275: bytes refused by a DMA with a zero count are lost; the transfer ends all the same. -/
theorem test_fdd_xfer :
    leads (step ((turning fun f => { f with reading := true, xfSize := 2, xfBuf := [1, 2] }).withFetchWord 8 6))
      (fun t => !(t.fdd[0]).reading && t.pins.disk && t.dma.drq && t.trace == [.irq .disk true]) = true := by decide

/-- R276. -/
theorem test_bytepos :
    leads (step (given 0x300400020000000000000000000067F9 (turning id))) (fun t => answered t 0 3 0 100 0) = true := by decide

/-- R278: 6250 bytes are 3125 scanlines. -/
theorem test_conv : leads (step (given 0x470000010000186A0000000000000000 .reset)) (fun t => answered t 0 3 0 3125 0) = true := by
  decide

/-- R280: zero cycles per byte. -/
theorem test_cpb_zero :
    leads (step (given 0x31050003000000000000000000000000 .reset)) (fun t => answered t 0x0a 0 0 0 0 && (t.fdd[1]).cpb == 256)
      = true := by decide

/-- R281: the read lowers the line. -/
theorem test_cond_read :
    leads (step (given 0x30040006000000000000000000000000 { State.reset with
        fdd := State.reset.fdd.set 0 { Fdd.cold .default with cond := 2 }
        pins := { kbd := false, midi := false, disk := true } }))
      (fun t => answered t 0 3 0 2 0 && !t.pins.disk && (t.fdd[0]).cond == 2) = true := by decide

/-- Device 3 attached: image 1, 20480 sectors. -/
def disk3 (f : AcsiDev → AcsiDev) : State :=
  { State.reset with
    acsi := State.reset.acsi.set 3 (f { AcsiDev.cold .default with present := true, image := some 1, sectors := 20480 }) }

/-- R301. -/
theorem test_attach :
    leads (step (given 0x48030001000050000000000000000000 .reset))
      (fun t => (t.acsi[3]).present && (t.acsi[3]).image == some 1 && (t.acsi[3]).sectors == 20480) = true := by decide

/-- R303: byte 0x68 claims the bus for device 3. -/
theorem test_claim :
    leads (step (given 0x31070000000000680000000000000000 (disk3 id)))
      (fun t => t.acsiDev == 3 && ((t.acsi[3]).cmd[0]) == 0x08 && (t.acsi[3]).phase == 1) = true := by decide

/-- R304: the same opcode for device 5 leaves device 3 at phase 7. -/
theorem test_no_claim :
    leads (step (given 0x31070000000000A80000000000000000 (disk3 id)))
      (fun t => answered t 0 1 0 0 0 && (t.acsi[3]).phase == 7 && t.acsiDev == 0) = true := by decide

/-- R308: after an invalid opcode, 0x20 and three zeros go into the FIFO. -/
theorem test_request_sense :
    leads (step (State.withFetchWord { disk3 (fun a => { a with status := 2, error := 0x20 }) with
        dma := { Dma.reset with sct := 1 } } 48 0x630000000400))
      (fun t => ((t.dma.fifo[0])[0]) == 0x20 && ((t.dma.fifo[0])[3]) == 0 && t.dma.idx == 4 && (t.acsi[3]).error == 0
        && (t.acsi[3]).phase == 7) = true := by decide

/-- R310, R320 in advanced timing: sector 100, one block, due 4096 cycles on. -/
theorem test_acsi_read_timed :
    leads (step (State.withFetchWord (disk3 id) 48 0x680000640100))
      (fun t => answered t 0 1 0 0 0 && t.ax == { dir := .read, lba := 100, left := 1 } && (t.acsi[3]).phase == 6
        && t.ag[8] == some { fireTime := 4096, param := 3 }) = true := by decide

/-- R312: a seek beyond the image. -/
theorem test_seek_beyond :
    leads (step (State.withFetchWord (disk3 id) 48 0x6b0050000000))
      (fun t => (t.acsi[3]).status == 2 && (t.acsi[3]).error == 0x21 && t.pins.disk) = true := by decide

/-- R315. -/
theorem test_invalid_opcode :
    leads (step (State.withFetchWord (disk3 id) 48 0x7f0000000000))
      (fun t => (t.acsi[3]).status == 2 && (t.acsi[3]).error == 0x20 && (t.acsi[3]).phase == 7) = true := by decide

/-- R307, R321: the status of the owner. -/
theorem test_ready :
    leads (step (State.withFetchWord (disk3 fun a => { a with status := 2, error := 0x21 }) 48 0x600000000000))
      (fun t => answered t 0 1 0 0 0 && (t.acsi[3]).status == 0 && (t.acsi[3]).error == 0 && t.pins.disk) = true := by decide

/-! ### Witnesses: for each obligation with hypotheses, a state and operands that meet them, clause by clause -/

/-- A state with commands waiting. -/
def waiting (e x : List Word128) (s : State) : State :=
  { s with portE := { queue := e, replies := [] }, portX := { queue := x, replies := [] } }

/-- A state at time 10. -/
def at10 : State := { State.reset with now := 10 }

theorem witness_DecodeOfEncode :
    Params.default.Ok ∧ (Instr.cbAddbytes 1 12 0xFFFFFFFFFFFFFFFFFFFFFFFF).wf .default = true ∧
    (Instr.cbExt 15).wf .default = true ∧
    (Instr.acsiInvalid 7 0x1F 0xFFFFFF 255 255).wf .default = true ∧ (Instr.regRd 15 6 0).wf .default = true ∧
    (Instr.cbReserved12 7).wf small = true ∧ (Instr.regWrDmaAddr 0x3ff 0xff).wf small = true :=
  ⟨test_default_ok, by decide⟩

theorem witness_AcceptedWordsHaveOneMeaning :
    decode .default .E 0x49070000000000000000000000000000 = .ok (.acsiDetach 7) := by rfl

theorem witness_identity_bounds :
    (0 : BitVec 8).toNat < Params.default.ncb ∧ (31 : BitVec 8).toNat < Params.default.ncb ∧
    Params.default.ncb ≤ (32 : BitVec 8).toNat := by decide

theorem witness_PortRights :
    opOf (Cmd.ofWord 0xFF000000000000000000000000000000).op = none ∧
    opOf (Cmd.ofWord 0x28010000000000000000000000000000).op = some .cbCount ∧
    opOf (Cmd.ofWord 0x10000000000000000000000000000000).op = some .advance ∧
    decode .default .E 1 = .error .reserved := by
  refine ⟨?_, ?_, ?_, ?_⟩ <;> rfl

theorem witness_StepRunsTheDecodedInstruction_commands :
    (waiting [0x01000000000000000000000000000000] [] .reset).disp ≠ .scan ∧
    (waiting [0x01000000000000000000000000000000] [] .reset).acsiPending = none ∧
    decode .default .E 0x01000000000000000000000000000000 = .ok .reset ∧
    (waiting [] [0x28000000000000000000000000000000] .reset).portE.queue = [] ∧
    decode .default .X 0x28000000000000000000000000000000 = .ok (.cbCount 0) := by
  refine ⟨?_, ?_, ?_, ?_, ?_⟩ <;> first | rfl | decide

theorem witness_StepRunsTheDecodedInstruction_block :
    (State.reset.withFetchWord 48 0x680000640100).disp ≠ .scan ∧
    (State.reset.withFetchWord 48 0x680000640100).acsiPending = some 3 ∧
    (State.reset.withFetchWord 48 0x680000640100).portX.queue = [] := by decide

theorem witness_StepRunsTheDecodedInstruction_callback :
    (State.reset.withFetchWord 8 31).disp = .scan ∧ (State.reset.withFetchWord 8 31).portX.queue = [] ∧
    (chooseDue { State.reset.withFetchWord 8 31 with serving := .E }).map (·.1) = some 31 := by decide

theorem witness_StepPicksEitherPort :
    (waiting [0] [0x28000000000000000000000000000000] .reset).disp ≠ .scan ∧
    (waiting [0] [0x28000000000000000000000000000000] .reset).acsiPending = none ∧
    decode .default .E 0 = .ok .nop ∧ decode .default .X 0x28000000000000000000000000000000 = .ok (.cbCount 0) ∧
    hasWork (waiting [0] [0x28000000000000000000000000000000] .reset) .E = true ∧
    State.reset.portE.queue = [] ∧ State.reset.portX.queue = [] := by
  refine ⟨?_, ?_, ?_, ?_, ?_, ?_, ?_⟩ <;> first | rfl | decide

/-- R86, R89: the favoured port has its turns, then it is the other's. -/
theorem test_turns (n : Nat) :
    nextTurn ⟨n, some (.X, 2)⟩ = (.X, 1) ∧ (nextTurn ⟨n, some (.X, 0)⟩).1 = .E ∧
    (nextTurn ⟨n, some (.E, 0)⟩).1 = .X := by
  refine ⟨?_, ?_, ?_⟩ <;> rfl

/-- A held flag that both ports wait for. -/
def bothWait (p : Port) (c : Choices) : State :=
  { waiting [0x28000000000000000000000000000000] [0x28000000000000000000000000000000]
      (withBuffer { CircBuf.cold .default with mx := true } .reset) with serving := p, picks := c }

/-- The flag stays held, so both ports wait on. -/
theorem step_bothWait (p : Port) (c : Choices) : step (bothWait p c) = .next (bothWait (nextTurn c).1 c.contest) := by
  have hE : fetchE (bothWait p c) = some (.run (.cbCount 0) (bothWait .E c)) := rfl
  have hX : fetchX (bothWait p c) = some (.run (.cbCount 0) (bothWait .X c)) := rfl
  have hf : fetch (bothWait p c) = .run (.cbCount 0) (bothWait (nextTurn c).1 c.contest) := by
    unfold fetch
    rw [hE, hX]
    show (fetchPort (nextTurn c).1 (bothWait p c.contest)).getD .idle = _
    cases (nextTurn c).1 <;> rfl
  unfold step
  rw [hf]
  rfl

/-- The two ports waiting for ever. -/
def heldRun (n : Nat) : Port × Choices := n.repeat (fun r => ((nextTurn r.2).1, r.2.contest)) (.E, ⟨0, some (.E, 3)⟩)

/-- A run in which both ports have work at every step. -/
theorem witness_StepPicksEitherPort_run (p : Port) (m : Nat) :
    step (bothWait (heldRun m).1 (heldRun m).2) = .next (bothWait (heldRun (m + 1)).1 (heldRun (m + 1)).2) ∧
    hasWork (bothWait (heldRun m).1 (heldRun m).2) p = true :=
  ⟨step_bothWait _ _, by cases p <;> rfl⟩

/-- The other work of port E, with a word of port X waiting: a turn of the loop, the loop's end, an owed dispatch. -/
theorem witness_StepPicksEitherPort_work :
    (let s := { State.reset.withFetchWord 8 31 with portX := { queue := [1], replies := [] } }
     s.disp = .scan ∧
       (chooseDue { s with serving := .E, picks := { taken := s.picks.taken + 1, favour := some (.E, 0) } }).isSome = true) ∧
    (let s := { waiting [] [1] .reset with disp := .scan }
     s.disp = .scan ∧ (∀ c : CbId, c.val < s.par.ncb → due s s.advTarget c = false)) ∧
    (let s := { State.reset.withFetchWord 48 0x680000640100 with portX := { queue := [1], replies := [] } }
     s.disp ≠ .scan ∧ s.acsiPending = some 3) := by decide +kernel

theorem witness_RefusedWordIsOnlyAnswered :
    (waiting [1] [] .reset).disp ≠ .scan ∧ (waiting [1] [] .reset).acsiPending = none ∧
    decode .default .E 1 = .error .reserved ∧ decode .default .X 0x01000000000000000000000000000000 = .error .priv := by
  refine ⟨?_, ?_, ?_, ?_⟩ <;> first | rfl | decide

theorem witness_TimeCarryingCommandsSetNow :
    instrTime (.fddMotor 1 true 9) = some 9 ∧ passesChecks .default (.fddMotor 1 true 9) = true ∧
    Params.default.sdiff 9 at10.now < 0 ∧ instrTime (.advance 10) = some 10 ∧
    passesChecks .default (.advance 10) = true ∧ at10.disp = .idle ∧
    0 ≤ Params.default.sdiff 10 at10.now ∧ passesChecks .default (.regWr 3 0 0xFFFF 10) = true := by decide

theorem witness_TimeOnlyMovesForward :
    at10.par.Ok ∧ leads (exec (.regRdEngineNow 11) at10) (fun t => t.now == 11) = true ∧ instrTime .nop = none ∧
    leads (exec .nop at10) (fun t => t.now == 10) = true := ⟨test_default_ok, by decide⟩

/-- With one slot pending, every pending entry is that one. -/
theorem only_entry {s : State} {c₀ : CbId} {e₀ : AgEntry} (h : s.ag = (Vector.replicate 256 none).set c₀ (some e₀))
    {c : CbId} {e : AgEntry} (he : s.ag[c] = some e) : c = c₀ ∧ e = e₀ := by
  simp only [h, Fin.getElem_fin, Vector.getElem_set, Vector.getElem_replicate] at he
  split at he
  · rename_i hc
    exact ⟨(Fin.ext hc).symm, (Option.some.inj he).symm⟩
  · cases he

/-- With no slot pending, there is no entry. -/
theorem no_entry {s : State} (h : s.ag = Vector.replicate 256 none) {c : CbId} {e : AgEntry} (he : s.ag[c] = some e) :
    False := by
  simp [h] at he

/-- Identity 16 pending at 20, the time being 10. -/
def pending20 : State := withEntry 16 20 9 at10

theorem pending20_entry {c : CbId} {e : AgEntry} (he : pending20.ag[c] = some e) : e = { fireTime := 20, param := 9 } :=
  (only_entry (s := pending20) (c₀ := 16) rfl he).2

theorem witness_pending20_half_range : HalfRange pending20 := by
  intro c e he
  rw [pending20_entry he]
  decide

theorem witness_TimeOnlyMovesForward_read :
    Contract (fun _ => .E) (.regRdEngineNow 15) pending20 ∧
    leads (exec (.regRdEngineNow 15) pending20) (fun t => t.ag[16] == some { fireTime := 20, param := 9 }) = true := by
  refine ⟨⟨by decide, by decide, (fun _ h => by cases h), (fun _ h => by cases h), ?_, ?_, ?_, ?_, ?_⟩, by decide⟩
  · intro buf h; cases h
  · intro drive now h; cases h
  · intro now h _ c e he
    cases h
    rw [pending20_entry he]
    decide
  · intro cb param d h; cases h
  · decide

theorem witness_TimeOnlyMovesForward_schedule :
    Contract (fun _ => .E) (.schedule 17 0 0x8000000000000001) pending20 ∧
    leads (exec (.schedule 17 0 0x8000000000000001) pending20) (fun t => (t.ag[17]).isSome) = true := by
  refine ⟨⟨by decide, by decide, (fun _ h => by cases h), (fun _ h => by cases h), ?_, ?_, ?_, ?_, ?_⟩, by decide⟩
  · intro buf h; cases h
  · intro drive now h; cases h
  · intro now h; cases h
  · intro cb param d h; cases h; decide
  · decide

/-- A byte for the keyboard's transmitter at 15: its completion lies one byte time, 144 cycles, from then. -/
theorem witness_TimeOnlyMovesForward_chip :
    Contract (fun _ => .E) (.regWrAcia0Tdr 0x41 15) pending20 ∧
    144 ∈ chipDelays (.regWrAcia0Tdr 0x41 15) pending20 ∧ pending20.par.sdiff 159 15 = 144 ∧
    leads (exec (.regWrAcia0Tdr 0x41 15) pending20) (fun t => t.ag[0] == some { fireTime := 159, param := 0 }) = true := by
  refine ⟨⟨by decide, by decide, (fun _ h => by cases h), (fun _ h => by cases h), ?_, ?_, ?_, ?_, ?_⟩, by decide⟩
  · intro buf h; cases h
  · intro drive now h; cases h
  · intro now h _ c e he
    cases h
    rw [pending20_entry he]
    decide
  · intro cb param d h; cases h
  · decide

/-- Drive 0 turning, its pulse 500 cycles overdue. -/
def overdue : State := { withEntry 4 1601000 0 (turning id) with now := 1601500 }

/-- The pulse re-arms itself one rotation, 1600000 cycles, from its own fire time. -/
theorem witness_TimeOnlyMovesForward_rearm :
    overdue.par.Ok ∧ HalfRange overdue ∧ Contract (fun _ => .E) .cbFdd0Index overdue ∧
    (∀ (c : CbId) (e : AgEntry), Instr.cbFdd0Index = callbackOf overdue.par c → overdue.ag[c] = some e →
      overdue.par.sdiff e.fireTime overdue.now ≤ 0) ∧
    1600000 ∈ chipDelays .cbFdd0Index overdue ∧
    leads (exec .cbFdd0Index overdue) (fun t => t.ag[4] == some { fireTime := 3201000, param := 0 }) = true := by
  refine ⟨test_default_ok, ?_,
    ⟨by decide, by decide, (fun _ h => by cases h), (fun _ h => by cases h), ?_, ?_, ?_, ?_, ?_⟩, ?_, by decide⟩
  · intro c e he
    rw [(only_entry (s := overdue) (c₀ := 4) rfl he).2]
    decide
  · intro buf h; cases h
  · intro drive now h; cases h
  · intro now h; cases h
  · intro cb param d h; cases h
  · decide
  · intro c e _ he
    rw [(only_entry (s := overdue) (c₀ := 4) rfl he).2]
    decide

theorem witness_NopAdvanceFireAck :
    at10.disp = .idle ∧ 0 ≤ Params.default.sdiff 10 at10.now ∧
    ({ State.reset with disp := .waitAck, fireCb := 16 } : State).disp ≠ .idle ∧
    ({ State.reset with disp := .waitAck, fireCb := 31 } : State).fireCb = 31 ∧
    Params.default.ncbInt ≤ (16 : BitVec 8).toNat ∧ (31 : BitVec 8).toNat < Params.default.ncb ∧
    (15 : BitVec 8).toNat < Params.default.ncbInt ∧ Params.default.ncb ≤ (32 : BitVec 8).toNat := by decide

theorem witness_SlotCommands :
    (16 : CbId).val = (16 : BitVec 8).toNat ∧ (31 : CbId).val = (31 : BitVec 8).toNat ∧
    Params.default.ncbInt ≤ (16 : CbId).val ∧ (31 : CbId).val < Params.default.ncb ∧ (0 : CbId).val = (0 : BitVec 8).toNat ∧
    Params.default.ncb ≤ (32 : BitVec 8).toNat ∧ (15 : BitVec 8).toNat < Params.default.ncbInt := by decide

theorem witness_ExternalAndReservedCallbacks :
    (withEntry 16 5 9 .reset).ag[(16 : CbId)] = some { fireTime := 5, param := 9 } ∧
    (31 : CbId).val = State.reset.par.ncbInt + (15 : CbId).val ∧ (9 : CbId).val = 9 ∧ (11 : CbId).val = 10 + (1 : Fin 2).val ∧
    (15 : CbId).val = 12 + (3 : Fin 244).val := by decide

theorem witness_EarliestEntryIsChosen :
    due (withEntry 31 0 9 .reset) 0 31 = true ∧
    (chooseDue (withEntry 31 0 9 .reset)).map (·.1) = some 31 := by decide

theorem witness_EarliestEntryIsChosen_half_range :
    HalfRangeOf (withEntry 31 0 9 .reset).advTarget (withEntry 31 0 9 .reset) := by
  intro c e he
  rw [(only_entry (s := withEntry 31 0 9 .reset) (c₀ := 31) rfl he).2]
  decide

theorem witness_LoopEndsWithNothingDue :
    (let s := { State.reset with disp := .scan }
     s.disp = .scan ∧ s.portX.queue = [] ∧ leads (step s) (fun t => t.disp == .idle) = true) := by decide

theorem witness_LifecycleCommandsComplete :
    (1 : BufId).val = (1 : BitVec 8).toNat ∧ (1 : BufId).val < State.reset.par.nbuf ∧
    (State.reset.cb[(1 : BufId)]).mx = false ∧ 2 ≤ (2 : BitVec 32).toNat ∧
    (65536 : BitVec 32).toNat ≤ 65536 := by decide

theorem witness_ProducerCommandsComplete :
    (0 : BufId).val = (0 : BitVec 8).toNat ∧ (0 : BufId).val < State.reset.par.nbuf ∧
    (withBuffer (buffer4 0 0) .reset).cb[(0 : BufId)] = buffer4 0 0 ∧
    (buffer4 0 0).mx = false ∧ (buffer4 0 0).cap ≠ 0 ∧ (3 : BitVec 16).toNat ≤ 12 ∧
    (3 : BitVec 16).toNat < (buffer4 0 0).cap := by decide

/-- Buffer 0 with its flag held. -/
def held : State := withBuffer { buffer4 0 1 with mx := true } .reset

theorem witness_BuffersWaitOrRefuse :
    State.reset.par.nbuf ≤ (2 : BitVec 8).toNat ∧ (0 : BufId).val = (0 : BitVec 8).toNat ∧ (0 : BufId).val < held.par.nbuf ∧
    (1 : BitVec 32).toNat < 2 ∧
    65536 < (65537 : BitVec 32).toNat ∧ 12 < (13 : BitVec 16).toNat ∧ (12 : BitVec 16).toNat ≤ 12 ∧
    (held.cb[(0 : BufId)]).mx = true ∧ (State.reset.cb[(0 : BufId)]).mx = false ∧
    (State.reset.cb[(0 : BufId)]).cap = 0 ∧ ((withBuffer (buffer4 0 1) .reset).cb[(0 : BufId)]).cap ≤ (4 : BitVec 16).toNat := by
  decide

theorem witness_buffer4_ok : (buffer4 1 0).Ok := by constructor <;> decide

/-- AddByteOnContent, BurstOnContent, BurstEqualsSingleBytes and ConsumersOnContent share these hypotheses. -/
theorem witness_buffers_on_content :
    (0 : BufId).val = (0 : BitVec 8).toNat ∧ (0 : BufId).val < State.reset.par.nbuf ∧
    ((withBuffer (buffer4 1 0) .reset).cb[(0 : BufId)]).Ok ∧
    ((withBuffer (buffer4 1 0) .reset).cb[(0 : BufId)]).cap ≠ 0 ∧ (3 : BitVec 16).toNat ≤ 12 ∧
    (3 : BitVec 16).toNat < ((withBuffer (buffer4 1 0) .reset).cb[(0 : BufId)]).cap ∧
    ((withBuffer (buffer4 1 0) .reset).cb[(0 : BufId)]).content = [some 0xA2, some 0xA3] ∧ (buffer4 0 1).content = [] :=
  ⟨by decide, by decide, witness_buffer4_ok, by decide, by decide, by decide, by decide, by decide⟩

/-- BufferContract: buffer 0 with two unread bytes, port E the producer and port X about to drop one. -/
theorem witness_BufferContract_consumer :
    (let s := { withBuffer (buffer4 1 0) .reset with serving := .X }
     Contract (fun _ => .E) (.cbNextbyte 0) s ∧ (s.cb[(0 : BufId)]).Ok ∧ s.serving ≠ .E ∧
     leads (exec (.cbNextbyte 0) s) (fun t => (t.cb[0]).content == [some 0xA3]) = true) := by
  refine ⟨⟨by decide, by decide, (fun _ h => by cases h), (fun _ _ => by decide), ?_, ?_, ?_, ?_, ?_⟩,
    witness_buffer4_ok, by decide, by decide⟩
  · intro buf h; cases h
  · intro drive now h; cases h
  · intro now h; cases h
  · intro cb param d h; cases h
  · decide

/-- BufferContract: the same buffer, port E about to add one. -/
theorem witness_BufferContract_producer :
    Contract (fun _ => .E) (.cbAddbyte 0 7) (withBuffer (buffer4 1 0) .reset) ∧
    bufferUse (.cbAddbyte 0 7) ≠ some (.lifecycle, BitVec.ofNat 8 (0 : BufId).val) ∧
    leads (exec (.cbAddbyte 0 7) (withBuffer (buffer4 1 0) .reset))
      (fun t => (t.cb[0]).content == [some 0xA2, some 0xA3, some 7]) = true := by
  refine ⟨⟨by decide, by decide, (fun _ _ => rfl), (fun _ h => by cases h), ?_, ?_, ?_, ?_, ?_⟩, by decide, by decide⟩
  · intro buf h; cases h
  · intro drive now h; cases h
  · intro now h; cases h
  · intro cb param d h; cases h
  · decide

theorem witness_AciaControlWrites :
    0 ≤ Params.default.sdiff 10 at10.now ∧ (0xFE : Byte).extractLsb' 0 2 ≠ 3 ∧ (0x23 : Byte).extractLsb' 0 2 = 3 := by decide

theorem witness_AciaTransmits :
    0 ≤ Params.default.sdiff 10 at10.now ∧ (State.reset.acia[(1 : Fin 2)]).lineBusyTx = false ∧
    ((midi16 fun a => { a with lineBusyTx := true }).acia[(1 : Fin 2)]).lineBusyTx = true ∧
    (withEntry 2 0 1 .reset).ag[aciaTxId 1] = some { fireTime := 0, param := 1 } ∧
    ((midi16 fun a => { a with tdre := false }).acia[(1 : Fin 2)]).tdre = false ∧
    (State.reset.acia[(1 : Fin 2)]).tdre = true := by decide

theorem witness_AciaReceives :
    (1 : BitVec 8).toNat = (1 : Fin 2).val ∧ 0 ≤ Params.default.sdiff 10 at10.now ∧ (at10.acia[(1 : Fin 2)]).lineBusyRx = false ∧
    ((midi16 fun a => { a with lineBusyRx := true }).acia[(1 : Fin 2)]).lineBusyRx = true ∧ 2 ≤ (2 : BitVec 8).toNat ∧
    (withEntry 3 0 1 .reset).ag[aciaRxId 1] = some { fireTime := 0, param := 1 } := by decide

/-- A RESET served on port E, from reset values that are the defaults and from others. -/
theorem witness_ResetBootsCold :
    State.reset.serving = .E ∧ State.reset.par.reset = .default ∧ otherReset.reset ≠ .default ∧
    leads (exec .reset .reset) (fun t => t.dma.status == 0x01) = true := by decide

theorem witness_AciaReads : 0 ≤ Params.default.sdiff 10 at10.now := by decide

theorem witness_AciaInstancesShareNothing :
    (0 : Fin 2) ≠ 1 ∧ (0 : Byte).toNat = (0 : Fin 2).val ∧
    leads (exec (.regWrAcia0Cr 0xA0 0) .reset) (fun t => t.pins.kbd && !t.pins.midi) = true := by decide

/-- A state whose MIDI interrupt is up, and the command that lowers it. -/
def midiUp : State :=
  given 0x31020000000000150000000000000000 { midi16 (fun a => { a with cr := 0x35, txIrqEn := true, irq := true }) with
    pins := { kbd := false, midi := true, disk := false } }

theorem witness_AciaInvariant :
    midiUp.par.Ok ∧ (∀ i : Fin 2, AciaOk midiUp i) ∧ leads (step midiUp) (fun t => !t.pins.midi) = true :=
  ⟨test_default_ok, by intro i; constructor <;> revert i <;> decide, by decide⟩

theorem witness_DmaRegisterWrites :
    0 ≤ Params.default.sdiff 10 at10.now ∧ (255 : BitVec 32).toNat < 2 ^ at10.par.dmaSctW ∧
    (0xFFFFFF : Addr).toNat < 2 ^ at10.par.dmaAddrW := by decide

/-- A DMA in the read direction, and in the write direction, with a count of 1. -/
def reading1 : State := { State.reset with dma := { Dma.reset with sct := 1, addr := 0xFFFFF8 } }
/-- See `reading1`. -/
def writing1 : State := { State.reset with dma := { Dma.reset with mcr := 0x100, sct := 1, addr := 0xFFFFF8 } }

theorem witness_DrqIsRefusedOrMovesOneByte :
    writing1.dma.mcr.getLsbD 8 = true ∧ State.reset.dma.sct = 0 ∧ writing1.dma.sct ≠ 0 ∧
    reading1.dma.mcr.getLsbD 8 = false ∧ reading1.dma.sct ≠ 0 ∧ reading1.dma.idx ≠ 15 ∧
    (14 : Fin 16) ≠ 0 ∧ (14 : Fin 16) ≠ 15 := by decide

theorem witness_HalfReachesMemory :
    reading1.par.Ok ∧ MemoryOk reading1 ∧ reading1.dma.mcr.getLsbD 8 = false ∧ reading1.dma.sct ≠ 0 ∧ reading1.dma.idx = 0 ∧
    (∀ k : Fin 16, (0x10 : Addr) ≠ Params.default.addrAt reading1.dma.addr k.val) :=
  ⟨test_default_ok, by unfold MemoryOk; decide⟩

theorem witness_HalfComesFromMemory :
    writing1.dma.mcr.getLsbD 8 = true ∧ writing1.dma.sct ≠ 0 ∧ writing1.dma.idx = 0 := by decide

theorem witness_MemoryStaysCanonical :
    MemoryOk { State.reset with mem := [(0, 1), (0xFFFFFF, 2)] } ∧
    leads (step { given 0 .reset with mem := [(0, 1), (0xFFFFFF, 2)] }) (fun t => t.mem.length == 2) = true := by
  unfold MemoryOk; decide

/-- Drive 0 in a read of two bytes. -/
def inRead : State :=
  withEntry 6 0 0 (turning fun f => { f with reading := true, xfSize := 2, xfBuf := [1, 2] })

theorem witness_MountCommandsComplete :
    (2 : Fin 3).val = (2 : BitVec 8).toNat ∧ (State.reset.fdd[(1 : Fin 3)]).reading = false ∧
    (State.reset.fdd[(1 : Fin 3)]).writing = false ∧ (inRead.fdd[(0 : Fin 3)]).reading = true ∧ (0 : Fin 3).val < 2 ∧
    (State.reset.fdd[(1 : Fin 3)]).disk = none ∧ (State.reset.fdd[(1 : Fin 3)]).singleSided = false ∧
    (State.reset.fdd[(1 : Fin 3)]).ghost = false ∧
    3 ≤ (3 : BitVec 8).toNat := by decide

theorem witness_MotorPulsesAndSteps :
    (1 : Fin 2).val = (1 : BitVec 8).toNat ∧ 0 ≤ Params.default.sdiff 10 at10.now ∧ (at10.fdd[driveSlot 1]).motor = false ∧
    ((turning id).fdd[driveSlot 0]).motor = true ∧ ((turning id).fdd[driveSlot 0]).reading = false ∧
    ((turning id).fdd[driveSlot 0]).writing = false ∧ (inRead.fdd[driveSlot 0]).motor = true ∧
    (inRead.fdd[driveSlot 0]).reading = true ∧ 2 ≤ (2 : BitVec 8).toNat ∧
    (withEntry 5 7 1 .reset).ag[fddIndexId 1] = some { fireTime := 7, param := 1 } ∧
    (at10.fdd[driveSlot 1]).reading = false ∧ (at10.fdd[driveSlot 1]).writing = false := by decide

theorem witness_FloppyTransferRefusals :
    2 ≤ (2 : BitVec 8).toNat ∧ (1 : Fin 2).val = (1 : BitVec 8).toNat ∧ (State.reset.fdd[driveSlot 1]).disk = none ∧
    (inRead.fdd[driveSlot 0]).disk = some 7 ∧ (inRead.fdd[driveSlot 0]).busy = true ∧
    ((turning fun f => { f with motor := false }).fdd[driveSlot 0]).motor = false ∧
    ((turning fun f => { f with singleSided := true }).fdd[driveSlot 0]).singleSided = true ∧
    ((turning id).fdd[driveSlot 0]).busy = false ∧ ((turning id).fdd[driveSlot 0]).singleSided = false ∧
    sectorAt (turning id).disks.layout 7 0 true 0 = none := by decide

theorem witness_FloppyTransferStarts :
    (0 : Fin 2).val = (0 : BitVec 8).toNat ∧ 0 ≤ Params.default.sdiff 27000 (turning id).now ∧
    ((turning id).fdd[driveSlot 0]).disk = some 7 ∧ ((turning id).fdd[driveSlot 0]).busy = false ∧
    ((turning id).fdd[driveSlot 0]).motor = true ∧ ((turning id).fdd[driveSlot 0]).singleSided = false ∧
    sectorAt (turning id).disks.layout 7 0 false (((turning id).fdd[driveSlot 0]).bytePosition .default 27000) =
      some (3, 512) ∧
    (turning id).disks.ioFail.head? ≠ some true ∧ [true].head? = some true := by decide

/-- Drive 1 at the end of a write of two bytes. -/
def inWrite (dma : Dma) : State :=
  withEntry 7 0 1 { State.reset with
    dma := dma
    fdd := State.reset.fdd.set 1
      { Fdd.cold .default with disk := some 2, motor := true, writing := true, xfSector := 4, xfSize := 2 } }

theorem witness_FloppyTransferEnds :
    inRead.ag[fddXferId 0] = some { fireTime := 0, param := 0 } ∧ (inRead.fdd[driveSlot 0]).reading = true ∧
    (inWrite Dma.reset).ag[fddXferId 1] = some { fireTime := 0, param := 1 } ∧
    ((inWrite Dma.reset).fdd[driveSlot 1]).reading = false ∧ none ∈ (drqOutAll 2 (inWrite Dma.reset)).1 ∧
    (drqOutAll 2 (inWrite writing1.dma)).1 = ([0, 0] : List Byte).map some ∧
    ((inWrite writing1.dma).fdd[driveSlot 1]).disk = some 2 ∧ (inWrite writing1.dma).disks.ioFail.head? ≠ some true := by
  decide

/-- Drive 0 at the end of a read of 512 bytes, the DMA ready. -/
def inSector : State :=
  withEntry 6 0 0 { (turning fun f => { f with reading := true, xfSize := 512, xfBuf := List.replicate 512 0xE5 }) with
    dma := { Dma.reset with sct := 1, addr := 0x010000 } }

theorem witness_FloppySectorReachesMemory :
    inSector.ag[fddXferId 0] = some { fireTime := 0, param := 0 } ∧ inSector.par.Ok ∧ 9 ≤ inSector.par.dmaAddrW ∧
    MemoryOk inSector ∧
    inSector.par.dmaSectorBytes = 512 ∧
    (inSector.fdd[driveSlot 0]).reading = true ∧ (inSector.fdd[driveSlot 0]).xfBuf.length = 512 ∧
    inSector.dma.mcr.getLsbD 8 = false ∧ inSector.dma.sct ≠ 0 ∧ inSector.dma.idx = 0 ∧ inSector.dma.bct = 0 :=
  ⟨by decide, test_default_ok, by decide, by unfold MemoryOk; decide, by decide, by decide, List.length_replicate,
    by decide, by decide, by decide, by decide⟩

theorem witness_ConversionsAndPosition :
    (turning id).par.Ok ∧ ((turning id).fdd[driveSlot 0]).cpb ≠ 0 ∧ (2 : BitVec 16).toNat ≤ 2 ∧ 2 < (3 : BitVec 16).toNat ∧
    0 ≤ Params.default.sdiff 27000 (turning id).now ∧ (State.reset.fdd[driveSlot 1]).motor = false ∧
    ((turning id).fdd[driveSlot 0]).motor = true ∧ 0 ≤ Params.default.sdiff 27000 ((turning id).fdd[driveSlot 0]).tLast ∧
    (1 : BitVec 32) ≠ 0 := ⟨test_default_ok, by decide⟩

/-- Drive 0 turning, its first pulse pending. -/
def pulsing : State := withEntry 4 1601000 0 (given 0x43000000000000000000000000001000 (turning id))

/-- A mounted inspection slot, and the command that unmounts it. -/
def inspecting : State :=
  given 0x42020000000000000000000000000000 { State.reset with
    fdd := State.reset.fdd.set 2 { Fdd.cold .default with disk := some 1, ghost := true } }

theorem witness_DriveInvariant :
    pulsing.par.Ok ∧ (∀ d : Fin 2, DriveOk pulsing d) ∧
    leads (step pulsing) (fun t => !(t.fdd[0]).motor && t.ag[4] == none) = true ∧
    inspecting.par.Ok ∧ InspectionOk inspecting ∧ leads (step inspecting) (fun t => (t.fdd[2]).disk == none) = true :=
  ⟨test_default_ok, by intro d; constructor <;> revert d <;> decide, by decide, test_default_ok,
    by constructor <;> decide, by decide⟩

/-- A state with one settle time of 100 cycles. -/
def settling : State := State.cold { Params.default with fddSettleCycles := some 100 }

theorem one_user_of_idle (s : State) (h : (s.ag[acsiBlockId]).isSome = false) : OneDiskUser s := by
  intro hb
  rw [h] at hb
  cases hb

/-- DiskContract: the step of a floppy read, inside the contract. -/
theorem witness_DiskContract_step :
    (given 0x45000000000000000000000000006978 (turning id)).par.Ok ∧
    AllowedStep (fun _ => .E) (given 0x45000000000000000000000000006978 (turning id)) ∧
    OneDiskUser (given 0x45000000000000000000000000006978 (turning id)) ∧
    leads (step (given 0x45000000000000000000000000006978 (turning id))) (fun t => (t.fdd[0]).reading) = true := by
  refine ⟨test_default_ok, ?_, one_user_of_idle _ (by decide), by decide⟩
  intro i u h
  have hf : fetch (given 0x45000000000000000000000000006978 (turning id)) =
      .run (.fddRead 0 false 27000) (given 0x45000000000000000000000000006978 (turning id)) := by rfl
  rw [hf] at h
  cases h
  refine ⟨by decide, by decide, (fun _ h => by cases h), (fun _ h => by cases h), ?_, ?_, ?_, ?_, ?_⟩
  · intro buf h; cases h
  · intro drive now _ _ d _ t n _ h; cases h
  · intro now h _ c e he
    cases h
    exact (no_entry (s := given 0x45000000000000000000000000006978 (turning id)) rfl he).elim
  · intro cb param d h; cases h
  · decide

/-- DiskContract: drive 0 in its transfer, and an instruction of the other drive. -/
theorem witness_DiskContract_transfer :
    Contract (fun _ => .E) .nop inRead ∧ OneDiskUser inRead ∧ (inRead.fdd[driveSlot 0]).busy = true ∧
    Instr.nop ∉ [Instr.reset, .cbFdd0Xfer, .cbFdd1Xfer] ∧ writesDma .nop = false := by
  refine ⟨⟨by decide, by decide, (fun _ h => by cases h), (fun _ h => by cases h), ?_, ?_, ?_, ?_, ?_⟩,
    one_user_of_idle _ (by decide), by decide, by decide, by decide⟩
  · intro buf h; cases h
  · intro drive now h; cases h
  · intro now h; cases h
  · intro cb param d h; cases h
  · decide

/-- The state after a step of the head at 5. -/
def stepped : State := (runAll [.fddStep 0 true 5, .nop] settling).getD settling

/-- DiskContract: a step at 5, and a read at 105. -/
theorem witness_DiskContract_settle :
    (0 : Fin 2).val = (0 : BitVec 8).toNat ∧ settling.par.fddSettleCycles = some 100 ∧
    (settling.fdd[driveSlot 0]).busy = false ∧ 0 ≤ Params.default.sdiff 5 settling.now ∧
    (runAll [.fddStep 0 true 5, .nop] settling).isSome = true ∧
    (∀ j ∈ [Instr.nop], j ≠ .reset ∧ ∀ dir n, j ≠ .fddStep 0 dir n) ∧
    Contract (fun _ => .E) (.fddRead 0 false 105) stepped ∧ 0 ≤ Params.default.sdiff 105 stepped.now := by
  refine ⟨by decide, by decide, by decide, by decide, by decide, by simp,
    ⟨by decide, by decide, (fun _ h => by cases h), (fun _ h => by cases h), ?_, ?_, ?_, ?_, ?_⟩, by decide⟩
  · intro buf h; cases h
  · intro drive now h _ d hd t n ht hn
    cases h
    have hd0 : d = 0 := Fin.ext hd
    subst hd0
    have h1 : stepped.lastStep[(0 : Fin 2)] = some 5 := by decide
    have h2 : stepped.par.fddSettleCycles = some 100 := by decide
    rw [h1] at ht
    rw [h2] at hn
    cases ht
    cases hn
    decide
  · intro now h _ c e he
    cases h
    exact (no_entry (s := stepped) rfl he).elim
  · intro cb param d h; cases h
  · decide

theorem witness_AcsiAttachment :
    (7 : Dev).val = (7 : BitVec 8).toNat ∧ (7 : Dev).val < State.reset.par.acsiNdev ∧ (State.reset.acsi[(7 : Dev)]).phase = 7 ∧
    (State.reset.acsi[(7 : Dev)]).present = false ∧ (State.reset.acsi[(7 : Dev)]).image = none ∧
    (State.reset.acsi[(7 : Dev)]).sectors = 0 ∧ ((disk3 fun a => { a with phase := 1 }).acsi[(3 : Dev)]).phase ≠ 7 ∧
    State.reset.par.acsiNdev ≤ (8 : BitVec 8).toNat := by decide

/-- Device 3 the owner, in a phase. -/
def owner3 (phase : Fin 8) : State := { disk3 (fun a => { a with phase := phase }) with acsiDev := 3 }

theorem witness_BusByteRule :
    0 ≤ Params.default.sdiff 10 at10.now ∧ ((owner3 1).acsi[(owner3 1).acsiDev]).phase.val = (1 : Fin 5).val ∧
    ((owner3 4).acsi[(owner3 4).acsiDev]).phase.val = (4 : Fin 5).val ∧
    ((owner3 5).acsi[(owner3 5).acsiDev]).phase = 5 ∧ ((owner3 6).acsi[(owner3 6).acsiDev]).phase = 6 ∧
    ((owner3 7).acsi[(owner3 7).acsiDev]).phase = 7 ∧ (3 : Dev).val = ((0x68 : Byte).extractLsb' 5 3).toNat ∧
    ((owner3 7).acsi[(3 : Dev)]).present = true ∧ ((owner3 7).acsi[(5 : Dev)]).present = false := by decide

theorem witness_ShortAcsiCommandsFinish :
    ((disk3 id).acsi[(3 : Dev)]).sectors.toNat ≤ (20480 : BitVec 24).toNat ∧
    (20479 : BitVec 24).toNat < ((disk3 id).acsi[(3 : Dev)]).sectors.toNat := by decide

/-- Format: no failing call, and a failure at sector 1 of two. -/
theorem witness_FormatFillsEverySector :
    ((disk3 id).acsi[(3 : Dev)]).image = some 1 ∧ (disk3 id).disks.ioFail = [] ∧
    (let s := { disk3 (fun a => { a with sectors := 2 }) with
        disks := { image := [], ghost := [], layout := [], ioFail := [false, true] } }
     (s.acsi[(3 : Dev)]).image = some 1 ∧ 1 ≤ (s.acsi[(3 : Dev)]).sectors.toNat ∧
     (∀ j < 1, s.disks.ioFail[j]? ≠ some true) ∧ 1 < (s.acsi[(3 : Dev)]).sectors.toNat ∧
     s.disks.ioFail[1]? = some true) := by decide

theorem witness_AcsiTransfersStart :
    ((disk3 id).acsi[(3 : Dev)]).sectors.toNat < (20480 : BitVec 24).toNat + (1 : Byte).toNat ∧
    (20479 : BitVec 24).toNat + (1 : Byte).toNat ≤ ((disk3 id).acsi[(3 : Dev)]).sectors.toNat ∧
    (20480 : BitVec 24).toNat + (0 : Byte).toNat ≤ ((disk3 id).acsi[(3 : Dev)]).sectors.toNat ∧ (1 : Byte) ≠ 0 ∧
    (disk3 id).cfg.getLsbD 0 = true := by decide

/-- Device 3 and the DMA ready for an instant transfer of a block, in one direction, the second call failing. -/
def instant (mcr : BitVec 16) : State :=
  { disk3 id with
    cfg := 0
    dma := { Dma.reset with mcr := mcr, sct := 2, addr := 0x010000 }
    disks := { image := [], ghost := [], layout := [], ioFail := [false, true] } }

/-- One block of two goes well, then the call fails. -/
theorem witness_InstantReadDelivers :
    (let s := instant 0
     s.par.Ok ∧ (s.acsi[(3 : Dev)]).image = some 1 ∧ s.par.dmaSectorBytes = 512 ∧ s.par.acsiBlockBytes = 512 ∧
     (100 : BitVec 24).toNat + (2 : Byte).toNat ≤ (s.acsi[(3 : Dev)]).sectors.toNat ∧
     512 * (2 : Byte).toNat ≤ 2 ^ s.par.dmaAddrW ∧ s.dma.addr.toNat < 2 ^ s.par.dmaAddrW ∧ s.cfg.getLsbD 0 = false ∧
     MemoryOk s ∧ s.dma.mcr.getLsbD 8 = false ∧ s.dma.idx = 0 ∧ s.dma.bct = 0 ∧ 1 ≤ (2 : Byte).toNat ∧
     (∀ j < 1, s.disks.ioFail[j]? ≠ some true) ∧ s.disks.ioFail[1]? = some true) :=
  ⟨test_default_ok, by unfold MemoryOk; decide⟩

/-- The same of a write; and a write of two blocks with one to count. -/
theorem witness_InstantWriteDelivers :
    (let s := instant 0x100
     s.par.Ok ∧ (s.acsi[(3 : Dev)]).image = some 1 ∧ s.par.dmaSectorBytes = 512 ∧ s.par.acsiBlockBytes = 512 ∧
     (100 : BitVec 24).toNat + (2 : Byte).toNat ≤ (s.acsi[(3 : Dev)]).sectors.toNat ∧
     s.dma.addr.toNat < 2 ^ s.par.dmaAddrW ∧ s.cfg.getLsbD 0 = false ∧
     s.dma.mcr.getLsbD 8 = true ∧ s.dma.idx = 0 ∧ s.dma.bct = 0 ∧ 1 ≤ (2 : Byte).toNat ∧ 1 ≤ s.dma.sct.toNat ∧
     (∀ j < 1, s.disks.ioFail[j]? ≠ some true) ∧ s.disks.ioFail[1]? = some true ∧
     ({ s.dma with sct := 1 } : Dma).sct.toNat = 1) := ⟨test_default_ok, by decide⟩

/-- Device 3 in a transfer with a block pending. -/
def inBlock (dir : Dir) (left : Nat) : State :=
  withEntry 8 4096 3 { owner3 6 with ax := { dir := dir, lba := 100, left := left } }

theorem witness_BlockCallback :
    (inBlock .read 1).ag[acsiBlockId] = some { fireTime := 4096, param := BitVec.ofNat 32 (3 : Dev).val } ∧
    ((inBlock .read 2).acsi[(3 : Dev)]).image = some 1 ∧ (inBlock .read 1).ax.dir = .read ∧
    (inBlock .read 1).disks.ioFail.head? ≠ some true ∧ (inBlock .write 1).ax.dir = .write ∧
    ((drqOutAll 512 (inBlock .write 1)).1).head? = some none ∧ [true].head? = some true := by decide

/-- The bytes of a write are all there when the DMA moves memory to the device. -/
theorem witness_BlockCallback_bytes :
    (drqOutAll 512 { inBlock .write 1 with dma := writing1.dma }).1 = (List.replicate 512 (0 : Byte)).map some := by
  decide +kernel

theorem witness_AcsiKeepsTimingMode :
    leads (exec (.acsiRead 3 100 1 0) (disk3 id)) (fun t => (t.ag[8]).isSome) = true ∧
    leads (exec .cbAcsiBlock .reset) (fun _ => true) = true := by decide

/-- The owner with its third byte to come. -/
def thirdByte : State := given 0x31070000000000120000000000000000 (owner3 2)

theorem witness_AcsiInvariant :
    thirdByte.par.Ok ∧ AcsiOk thirdByte ∧ leads (step thirdByte) (fun t => (t.acsi[3]).phase == 3) = true :=
  ⟨test_default_ok, by constructor <;> decide, by decide⟩

theorem witness_EngineRegisters :
    0 ≤ Params.default.sdiff 10 at10.now ∧ (1 : Byte).toNat < 2 ∧ 2 ≤ (2 : Byte).toNat := by decide

/-- ObservationReads asks only that time does not go back. -/
theorem witness_reads : 0 ≤ Params.default.sdiff 10 at10.now ∧ 0 ≤ Params.default.sdiff 0 State.reset.now := by decide

theorem witness_RegisterOperations :
    Params.default.Ok ∧
    decode .default .E (Cmd.toWord ⟨0x30, 15, 13, 0, 10⟩) = .ok (.regRdAcsidevCmd5 7 10) ∧
    decode .default .E (Cmd.toWord ⟨0x31, 7, 0, 0xFF, 10⟩) = .ok (.regWrAcsibusByte 0xFF 10) ∧
    8 + Params.default.acsiNdev ≤ (16 : BitVec 8).toNat ∧ (15 : BitVec 8).toNat < 8 + Params.default.acsiNdev ∧
    (48 : BitVec 16).toNat ∉ List.range' 16 32 ∧
    (6 : BitVec 16).toNat ∉ [0, 1, 2, 3, 4, 5, 8, 9, 10, 11, 12, 13] ∧ (1 : BitVec 16).toNat ∉ [0] ∧
    (255 : BitVec 32).toNat < 2 ^ Params.default.dmaSctW ∧ 2 ^ Params.default.dmaSctW ≤ (256 : BitVec 32).toNat := by
  refine ⟨test_default_ok, ?_, ?_, ?_, ?_, ?_, ?_, ?_, ?_, ?_⟩ <;> first | rfl | decide

/-- The buffers but buffer 0 are as at reset. -/
theorem other_buffer (c : CircBuf) {b : BufId} (hb : b ≠ 0) :
    (withEntry 31 7 9 (withBuffer c .reset)).cb[b] = CircBuf.cold .default := by
  have h : (withEntry 31 7 9 (withBuffer c .reset)).cb = (Vector.replicate 256 (CircBuf.cold .default)).set 0 c := rfl
  have h0 : 0 ≠ b.val := fun h => hb (Fin.ext h.symm)
  rw [h, Fin.getElem_fin, Vector.getElem_set]
  simp [h0]

/-- Every field within its width: buffer 0 live, entry 31 pending. -/
theorem witness_widths : WidthsOk (withEntry 31 7 9 (withBuffer (buffer4 1 0) .reset)) where
  now := by decide
  target := by decide
  fired := by decide
  entries := by
    intro c e he
    rw [(only_entry (s := withEntry 31 7 9 (withBuffer (buffer4 1 0) .reset)) (c₀ := 31) rfl he).1,
      (only_entry (s := withEntry 31 7 9 (withBuffer (buffer4 1 0) .reset)) (c₀ := 31) rfl he).2]
    decide
  buffers := by
    intro b hb
    rw [other_buffer _ (by intro h; subst h; revert hb; decide)]
    rfl
  capacities := by
    intro b
    by_cases hb : b = 0
    · subst hb
      decide
    · rw [other_buffer _ hb]
      decide
  writes := by decide
  counter := by decide
  address := by decide
  pulses := by decide
  steps := fun d t ht => by revert d; intro d; fin_cases d <;> intro ht <;> cases ht
  devices := by decide
  owner := by decide
  owed := by decide

theorem witness_buffers : BuffersOk (withEntry 31 7 9 (withBuffer (buffer4 1 0) .reset)) := by
  intro b
  by_cases hb : b = 0
  · subst hb
    exact ⟨witness_buffer4_ok, by decide⟩
  · rw [other_buffer _ hb]
    exact ⟨by constructor <;> decide, by decide⟩

theorem witness_written (b : BufId) : ((withEntry 31 7 9 (withBuffer (buffer4 1 0) .reset)).cb[b]).Written := by
  unfold CircBuf.Written
  by_cases hb : b = 0
  · subst hb
    decide
  · rw [other_buffer _ hb]
    decide

theorem witness_PartsKeepTheirForm :
    BuffersOk (withEntry 31 7 9 (withBuffer (buffer4 1 0) .reset)) ∧
    (∀ b : BufId, ((withEntry 31 7 9 (withBuffer (buffer4 1 0) .reset)).cb[b]).Written) ∧
    (∀ i : Fin 2, LinesOk (withEntry 2 0 1 (midi16 fun a => { a with lineBusyTx := true, tdre := false })) i) ∧
    State.reset.par.Ok ∧ DmaOk { State.reset with dma := { Dma.reset with bct := 496 } } ∧
    (withEntry 2 0 1 (midi16 fun a => { a with lineBusyTx := true, tdre := false })).par.Ok ∧
    (withEntry 31 7 9 (withBuffer (buffer4 1 0) .reset)).par.Ok ∧
    WidthsOk (withEntry 31 7 9 (withBuffer (buffer4 1 0) .reset)) ∧ leads (step (given 0 .reset)) (fun _ => true) = true :=
  ⟨witness_buffers, witness_written,
    by intro i; constructor <;> revert i <;> decide, test_default_ok, by constructor <;> decide, test_default_ok,
    test_default_ok, witness_widths, by decide⟩

/-- A running loop with its ADVANCE in service and entry 16 due. -/
def looping : State := State.reset.withFetchWord 8 16

theorem witness_DispatchInvariant :
    looping.par.Ok ∧ DispatchOk looping ∧ leads (step looping) (fun t => t.disp == .waitAck) = true :=
  ⟨test_default_ok, by constructor <;> decide, by decide⟩
end

section
namespace Sys2Proof.Machine

/-! ### One place of a vector -/

/-- Replacing one element by one that reads the same under `f` changes nothing that `f` reads. -/
theorem getElem_set_reading {α β : Type} {n : Nat} (v : Vector α n) (i : Fin n) (x : α) (f : α → β)
    (h : f x = f v[i]) (j : Fin n) : f (v.set i x)[j] = f v[j] := by
  by_cases hij : i = j
  · subst hij
    simpa using h
  · have : i.val ≠ j.val := fun e => hij (Fin.ext e)
    simp [this]

/-! ### Counting in the DMA controller -/

/-- What one operation of the DMA controller does to its counters: the byte counter stays, is cleared or counts a half that
does not complete a sector; the sector counter stays, counts down from a nonzero value or takes a value of its width; the
address stays or takes a value of its width (43_dma.md R232 to R240). -/
structure Dma.Counts (p : Params) (d d' : Dma) : Prop where
  bytes : d'.bct = d.bct ∨ d'.bct = 0 ∨ d.bct + 16 ≠ p.dmaSectorBytes ∧ d'.bct = d.bct + 16
  sectors : d'.sct = d.sct ∨ d.sct ≠ 0 ∧ d'.sct = d.sct - 1 ∨ d'.sct.toNat < 2 ^ p.dmaSctW
  address : d'.addr = d.addr ∨ d'.addr.toNat < 2 ^ p.dmaAddrW

/-- Any number of operations of the DMA controller. -/
abbrev Dma.CountsTo (p : Params) : Dma → Dma → Prop := Relation.ReflTransGen (Dma.Counts p)

theorem Dma.CountsTo.same {p : Params} {d d' : Dma} (hb : d'.bct = d.bct) (hs : d'.sct = d.sct)
    (ha : d'.addr = d.addr) : Dma.CountsTo p d d' := .single ⟨.inl hb, .inl hs, .inl ha⟩

theorem Dma.CountsTo.trans {p : Params} {d₁ d₂ d₃ : Dma} (h : Dma.CountsTo p d₁ d₂) (g : Dma.CountsTo p d₂ d₃) :
    Dma.CountsTo p d₁ d₃ := Relation.ReflTransGen.trans h g

theorem Dma.countsTo_clear (p : Params) (d : Dma) : Dma.CountsTo p d d.clear :=
  .single ⟨.inr (.inl rfl), .inr (.inr (Nat.two_pow_pos _)), .inl rfl⟩

theorem Dma.countsTo_writeMcr (p : Params) (v : BitVec 16) (d : Dma) : Dma.CountsTo p d (d.writeMcr v) := by
  unfold Dma.writeMcr
  dsimp only
  split
  · exact .same rfl rfl rfl
  · exact (Dma.countsTo_clear p d).trans (.same rfl rfl rfl)

theorem Dma.countsTo_countHalf (p : Params) (d : Dma) (h : d.sct ≠ 0) : Dma.CountsTo p d (d.countHalf p) := by
  unfold Dma.countHalf
  split
  · exact .single ⟨.inr (.inl rfl), .inr (.inl ⟨h, rfl⟩), .inl rfl⟩
  · exact .single ⟨.inr (.inr ⟨‹_›, rfl⟩), .inl rfl, .inl rfl⟩

theorem Dma.countsTo_address (p : Params) (a : Addr) (k : Nat) (d d' : Dma) (hb : d'.bct = d.bct) (hs : d'.sct = d.sct)
    (ha : d'.addr = p.addrAt a k) : Dma.CountsTo p d d' :=
  .single ⟨.inl hb, .inl hs, .inr (ha ▸ Params.addrAt_lt p a k)⟩

theorem transferBytes_counts (s : State) (h : s.dma.sct ≠ 0) : Dma.CountsTo s.par s.dma (transferBytes s).dma :=
  (Dma.countsTo_address s.par s.dma.addr 16 s.dma
      { s.dma with addr := s.par.addrAt s.dma.addr 16, sel := otherHalf s.dma.sel } rfl rfl rfl).trans
    (Dma.countsTo_countHalf s.par _ h)

theorem addToFifo_counts (b : Byte) (s : State) (h : s.dma.sct ≠ 0) :
    Dma.CountsTo s.par s.dma (addToFifo b s).dma := by
  unfold addToFifo
  dsimp only
  split
  · let u := State.modDma (s.modDma (Dma.putByte b)) fun d => { d with idx := 0 }
    have put : Dma.CountsTo s.par s.dma u.dma := .same rfl rfl rfl
    exact put.trans (transferBytes_counts u h)
  · exact .same rfl rfl rfl

theorem drqIn_counts (b : Byte) (s : State) : Dma.CountsTo s.par s.dma (drqIn b s).dma := by
  rcases drqIn_cases b s with ⟨_, e⟩ | ⟨_, _, e⟩ | ⟨_, hs, e⟩ <;> rw [e]
  · exact .same rfl rfl rfl
  · exact .same rfl rfl rfl
  · exact (addToFifo_counts b s hs).trans (.same rfl rfl rfl)

theorem drqInAll_counts (l : List Byte) (s : State) : Dma.CountsTo s.par s.dma (drqInAll l s).dma := by
  induction l generalizing s with
  | nil => exact .refl
  | cons b l ih => exact (drqIn_counts b s).trans (by have := ih (drqIn b s); rwa [(drqIn_leaves b s).1] at this)

theorem fillHalf_counts (s : State) :
    Dma.CountsTo s.par s.dma (fillHalf s).dma ∧ (fillHalf s).dma.sct = s.dma.sct := by
  unfold fillHalf
  split
  · exact ⟨Dma.countsTo_address s.par s.dma.addr 16 _ _ rfl rfl rfl, rfl⟩
  · exact ⟨.refl, rfl⟩

theorem takeByte_counts (p : Params) (d : Dma) (h : d.sct ≠ 0) : Dma.CountsTo p d (d.takeByte p) := by
  unfold Dma.takeByte
  split
  · have turned : Dma.CountsTo p d { d with idx := 0, sel := otherHalf d.sel } := .same rfl rfl rfl
    exact turned.trans (Dma.countsTo_countHalf p _ h)
  · exact .same rfl rfl rfl

theorem drqOut_counts (s : State) : Dma.CountsTo s.par s.dma (drqOut s).2.dma := by
  rcases drqOut_cases s with ⟨_, e⟩ | ⟨_, _, e⟩ | ⟨_, hs, e⟩ <;> rw [e]
  · exact .same rfl rfl rfl
  · exact .same rfl rfl rfl
  · obtain ⟨hfill, hsct⟩ := fillHalf_counts s
    have htake := takeByte_counts s.par (fillHalf s).dma (by rwa [hsct])
    exact (hfill.trans htake).trans (by rw [(fillHalf_leaves s).1]; exact .same rfl rfl rfl)

theorem drqOutAll_counts (n : Nat) (s : State) : Dma.CountsTo s.par s.dma (drqOutAll n s).2.dma := by
  induction n generalizing s with
  | zero => exact .refl
  | succ n ih => exact (drqOut_counts s).trans (by have := ih (drqOut s).2; rwa [(drqOut_leaves s).1] at this)

/-! ### Operations that touch neither the clock, the Agenda, a buffer nor a line -/

/-- The parts of the state that no chip's own operation writes: the parameters, the clock, what the dispatcher holds, the
Agenda, the buffers, the times of the last steps and the bus. -/
structure SameBase (s t : State) : Prop where
  par : t.par = s.par
  now : t.now = s.now
  target : t.advTarget = s.advTarget
  fireTime : t.fireTime = s.fireTime
  fireParam : t.fireParam = s.fireParam
  ag : t.ag = s.ag
  cb : t.cb = s.cb
  steps : t.lastStep = s.lastStep
  owner : t.acsiDev = s.acsiDev
  owed : t.acsiPending = s.acsiPending

theorem SameBase.trans {s u t : State} (h : SameBase s u) (g : SameBase u t) : SameBase s t where
  par := g.par.trans h.par
  now := g.now.trans h.now
  target := g.target.trans h.target
  fireTime := g.fireTime.trans h.fireTime
  fireParam := g.fireParam.trans h.fireParam
  ag := g.ag.trans h.ag
  cb := g.cb.trans h.cb
  steps := g.steps.trans h.steps
  owner := g.owner.trans h.owner
  owed := g.owed.trans h.owed

/-- What is told of an ACIA's lines: whether each is busy, whether a byte waits in `TDR`, and the time of the last write. -/
def Acia.lines (a : Acia) : Bool × Bool × Bool × Clock := (a.lineBusyTx, a.lineBusyRx, a.tdre, a.lastTxWrite)

theorem Acia.lines_eq_iff (a b : Acia) : a.lines = b.lines ↔
    a.lineBusyTx = b.lineBusyTx ∧ a.lineBusyRx = b.lineBusyRx ∧ a.tdre = b.tdre ∧ a.lastTxWrite = b.lastTxWrite := by
  simp [Acia.lines]

/-- The times of a drive's index pulses. -/
def Fdd.times (f : Fdd) : Clock × Clock := (f.tNext, f.tLast)

theorem Fdd.times_eq_iff (f g : Fdd) : f.times = g.times ↔ f.tNext = g.tNext ∧ f.tLast = g.tLast := by
  simp [Fdd.times]

/-- A change that leaves the base, the ACIA lines, the times of the drives and the presence of the devices as they are; the
DMA controller may count. -/
structure Quiet (s t : State) : Prop where
  base : SameBase s t
  lines : ∀ k : Fin 2, (t.acia[k]).lines = (s.acia[k]).lines
  dma : Dma.CountsTo s.par s.dma t.dma
  times : ∀ d : Fin 3, (t.fdd[d]).times = (s.fdd[d]).times
  present : ∀ k : Dev, (t.acsi[k]).present = (s.acsi[k]).present

namespace Quiet

/-- A change of the base's rest alone is quiet when the chips stay. -/
theorem of_same {s t : State} (hb : SameBase s t) (hc : t.acia = s.acia ∧ t.fdd = s.fdd ∧ t.acsi = s.acsi)
    (hd : t.dma.bct = s.dma.bct ∧ t.dma.sct = s.dma.sct ∧ t.dma.addr = s.dma.addr) : Quiet s t := by
  obtain ⟨ha, hf, hk⟩ := hc
  obtain ⟨h1, h2, h3⟩ := hd
  exact ⟨hb, fun k => by simp [ha], .same h1 h2 h3, fun d => by simp [hf], fun k => by simp [hk]⟩

theorem refl (s : State) : Quiet s s := of_same (by constructor <;> simp) (by simp) (by simp)

theorem trans {s u t : State} (h : Quiet s u) (g : Quiet u t) : Quiet s t where
  base := h.base.trans g.base
  lines k := (g.lines k).trans (h.lines k)
  dma := h.dma.trans (h.base.par ▸ g.dma)
  times d := (g.times d).trans (h.times d)
  present k := (g.present k).trans (h.present k)

theorem answer (s : State) (w : Word128) : Quiet s (s.answer w) := of_same (by constructor <;> simp) (by simp) (by simp)

theorem refuse (e : ErrCode) (s : State) : Quiet s (refuse e s) := answer s _

theorem setPin (s : State) (l : IrqLine) (v : Bool) : Quiet s (s.setPin l v) :=
  of_same (by constructor <;> simp) (by simp) (by simp)

theorem setAx (s : State) (a : AcsiXfer) : Quiet s { s with ax := a } :=
  of_same (by constructor <;> simp) (by simp) (by simp)

theorem modDma {s : State} {g : Dma → Dma} (h : Dma.CountsTo s.par s.dma (g s.dma)) : Quiet s (s.modDma g) :=
  { refl s with base := by constructor <;> rfl, dma := h }

theorem modAcia (s : State) (k : Fin 2) {g : Acia → Acia} (h : ∀ a, (g a).lines = a.lines) : Quiet s (s.modAcia k g) :=
  { refl s with
    base := by constructor <;> rfl
    lines := getElem_set_reading s.acia k _ Acia.lines (h s.acia[k]) }

theorem modFdd (s : State) (d : Fin 3) {g : Fdd → Fdd} (h : ∀ f, (g f).times = f.times) : Quiet s (s.modFdd d g) :=
  { refl s with
    base := by constructor <;> rfl
    times := getElem_set_reading s.fdd d _ Fdd.times (h s.fdd[d]) }

theorem modAcsi (s : State) (k : Dev) {g : AcsiDev → AcsiDev} (h : ∀ a, (g a).present = a.present) :
    Quiet s (s.modAcsi k g) :=
  { refl s with
    base := by constructor <;> rfl
    present := getElem_set_reading s.acsi k _ (·.present) (h s.acsi[k]) }

theorem checkIrq (k : Fin 2) (s : State) : Quiet s (checkIrq k s) :=
  .trans (modAcia s k (g := fun a => { a with irq := a.irqFormula }) fun _ => rfl) (setPin _ _ _)

theorem readRdr (k : Fin 2) (s : State) : Quiet s (readRdr k s) :=
  .trans (modAcia s k (g := fun a => { a with rdrf := false, overrun := false }) fun _ => rfl)
    (checkIrq k _)

theorem setCond (d : Fin 2) (v : Byte) (s : State) : Quiet s (setCond d v s) := modFdd s _ fun _ => rfl

theorem dmaError (s : State) : Quiet s (dmaError s) := modDma (.same rfl rfl rfl)

theorem drqInAll (l : List Byte) (s : State) : Quiet s (drqInAll l s) :=
  { base := by constructor <;> simp, lines := by simp, dma := drqInAll_counts l s, times := by simp, present := by simp }

theorem drqOutAll (n : Nat) (s : State) : Quiet s (drqOutAll n s).2 :=
  { base := by constructor <;> simp, lines := by simp, dma := drqOutAll_counts n s, times := by simp, present := by simp }

theorem drqOutBytes (n : Nat) (s : State) : Quiet s (drqOutBytes n s).2 := drqOutAll n s

theorem fetchSector (d : Fin 2) (h : Handle) (n : Sector) (z : Nat) (s : State) : Quiet s (fetchSector d h n z s).2 :=
  of_same (by constructor <;> simp) (by simp) (by simp)

theorem storeSector (d : Fin 2) (b : List Byte) (s : State) : Quiet s (storeSector d b s).2 :=
  of_same (by constructor <;> simp) (by simp) (by simp)

theorem finishRead (d : Fin 2) (s : State) : Quiet s (finishRead d s) :=
  (drqInAll _ s).trans (modFdd _ _ fun _ => rfl)

theorem finishWrite (d : Fin 2) (s : State) : Quiet s (finishWrite d s) := by
  unfold Machine.finishWrite
  dsimp only
  refine .trans ?_ (modFdd _ _ fun _ => rfl)
  have asked := drqOutBytes (s.fdd[driveSlot d]).xfSize s
  split
  · exact asked.trans (setCond _ _ _)
  · have stored := asked.trans (storeSector d ‹_› _)
    split
    · exact stored
    · exact (stored.trans (setCond _ _ _)).trans (dmaError _)

theorem fddXferDone (d : Fin 2) (s : State) : Quiet s (fddXferDone d s) := by
  unfold Machine.fddXferDone
  refine .trans ?_ (setPin _ _ _)
  split
  · exact finishRead d s
  · exact finishWrite d s

theorem acsiReport (k : Dev) (st er : Byte) (s : State) : Quiet s (acsiReport k st er s) := modAcsi s k fun _ => rfl

theorem acsiBegin (k : Dev) (s : State) : Quiet s (acsiBegin k s) := acsiReport k _ _ s

theorem acsiFinish (k : Dev) (s : State) : Quiet s (acsiFinish k s) :=
  .trans (modAcsi s k (g := fun a => { a with phase := 7 }) fun _ => rfl) (setPin _ _ _)

theorem readBlock (k : Dev) (s : State) : Quiet s (readBlock k s).2 :=
  of_same (by constructor <;> simp) (by simp) (by simp)

theorem writeBlock (k : Dev) (n : Sector) (b : List Byte) (s : State) : Quiet s (writeBlock k n b s).2 :=
  of_same (by constructor <;> simp) (by simp) (by simp)

theorem blockFailed (k : Dev) (e : Byte) (s : State) : Quiet s (blockFailed k e s).2 := acsiReport k _ _ s

theorem blockMoved (k : Dev) (s : State) : Quiet s (blockMoved k s).2 :=
  .trans (setAx s { s.ax with lba := s.ax.lba + 1, left := s.ax.left - 1 })
    (modAcsi _ k (g := fun a => { a with curLba := curLbaOf (s.ax.lba + 1) }) fun _ => rfl)

theorem moveIn (k : Dev) (r : Option (List Byte) × State) : Quiet r.2 (moveIn k r).2 := by
  unfold Machine.moveIn
  split
  · exact (dmaError _).trans (blockFailed _ _ _)
  · exact (drqInAll _ _).trans (blockMoved _ _)

theorem moveOut (k : Dev) (r : Option (List Byte) × State) : Quiet r.2 (moveOut k r).2 := by
  unfold Machine.moveOut
  dsimp only
  split
  · exact blockFailed _ _ _
  · have wrote := writeBlock k r.2.ax.lba ‹_› r.2
    split
    · exact wrote.trans (blockMoved _ _)
    · exact (wrote.trans (dmaError _)).trans (blockFailed _ _ _)

theorem moveBlock (k : Dev) (s : State) : Quiet s (moveBlock k s).2 := by
  unfold Machine.moveBlock
  split
  · exact (readBlock k s).trans (moveIn k _)
  · exact (drqOutBytes _ s).trans (moveOut k _)

theorem moveBlocks (k : Dev) (n : Nat) (s : State) : Quiet s (moveBlocks k n s) := by
  induction n generalizing s with
  | zero => exact refl s
  | succ n ih =>
    unfold Machine.moveBlocks
    dsimp only
    split
    · exact (moveBlock k s).trans (ih _)
    · exact moveBlock k s

theorem endTransfer (k : Dev) (s : State) : Quiet s (endTransfer k s) :=
  .trans (setAx s { s.ax with left := 0 }) (acsiFinish k _)

theorem formatSectors (k : Dev) (l : Nat) (n : Sector) (s : State) : Quiet s (formatSectors k l n s) := by
  induction l generalizing n s with
  | zero => exact refl s
  | succ l ih =>
    unfold Machine.formatSectors
    dsimp only
    have wrote := writeBlock k n (List.replicate s.par.acsiBlockBytes Config.acsiFill) s
    split
    · exact wrote.trans (ih _ _)
    · exact (wrote.trans (acsiReport _ _ _ _)).trans (dmaError _)

end Quiet
end Sys2Proof.Machine
end

section
namespace Sys2Proof.Machine

/-! ### What an instruction can do -/

/-- What a command on a buffer can do to it while it holds the flag (41_circular_buffer.md R164 to R173). -/
inductive CircBuf.Moves (p : Params) (c : CircBuf) : CircBuf → Prop where
  | same : Moves p c { c with mx := false }
  | create (size : Nat) : 2 ≤ size → size ≤ p.cbMaxcap → Moves p c { CircBuf.create size with mx := false }
  | destroy : Moves p c { c.destroy with mx := false }
  | rewind : Moves p c { c.rewind with mx := false }
  | addByte (byte : Byte) : c.cap ≠ 0 → Moves p c { c.addByte byte with mx := false }
  | addBytes (bytes : List Byte) : bytes.length < c.cap → Moves p c { c.addBytes bytes with mx := false }
  | next : c.cap ≠ 0 → c.next ≠ c.wr → Moves p c { c with rd := c.next, mx := false }

/-- An instruction about to run whose operands are within their widths: what a step fetches under legal parameters. A
transfer of an ACSI device is one that the device owes. -/
structure Legal (i : Instr) (s : State) : Prop where
  ok : s.par.Ok
  time : ∀ now, instrTime i = some now → now.toNat < 2 ^ s.par.cw
  param : ∀ cb param delay, i = .schedule cb param delay → param.toNat < 2 ^ s.par.pw
  host : ∀ n, i = .cbExt n → s.par.ncbInt + n.val < s.par.ncb
  device : ∀ k lba count ctrl, i = .acsiRead k lba count ctrl ∨ i = .acsiWrite k lba count ctrl →
    s.acsiPending = some k

/-- An entry that an instruction puts into the Agenda: at the delay of its SCHEDULE, at a chip's delay from `NOW`, or, when
it re-arms itself, at a chip's delay from the entry that fired. -/
structure Fresh (i : Instr) (s : State) (c : CbId) (e : AgEntry) : Prop where
  time : (∃ d, i = .schedule (BitVec.ofNat 8 c.val) e.param d ∧ e.fireTime = s.par.tadd s.now d) ∨
    (∃ n ∈ chipDelays i s, e.fireTime = s.par.cycles (s.now.toNat + n)) ∨
    ∃ n ∈ chipDelays i s, ∃ fired, i = callbackOf s.par c ∧ s.ag[c] = some fired ∧
      e.fireTime = s.par.cycles (fired.fireTime.toNat + n)
  slot : c.val < s.par.ncb
  param : Legal i s → WidthsOk s → e.param.toNat < 2 ^ s.par.pw

/-- Everything an instruction other than RESET can do to the state it acts in, `NOW` having been set, as far as the form of
the parts and the times of the Agenda go. -/
structure Effect (i : Instr) (s t : State) : Prop where
  par : t.par = s.par
  now : t.now = s.now
  target : t.advTarget = s.advTarget ∨ t.advTarget = s.now
  fired : (t.fireTime = s.fireTime ∧ t.fireParam = s.fireParam) ∨
    ∃ (c : CbId) (e : AgEntry), s.ag[c] = some e ∧ t.fireTime = e.fireTime ∧ t.fireParam = e.param
  entries : s.par.Ok → ∀ (c : CbId) (e : AgEntry), t.ag[c] = some e → s.ag[c] = some e ∨ Fresh i s c e
  buffers : ∀ b : BufId, t.cb[b] = s.cb[b] ∨ b.val < s.par.nbuf ∧ CircBuf.Moves s.par s.cb[b] t.cb[b]
  lines : Legal i s → ∀ k : Fin 2, LinesOk s k → LinesOk t k
  writes : ∀ k : Fin 2, (t.acia[k]).lastTxWrite = (s.acia[k]).lastTxWrite ∨ (t.acia[k]).lastTxWrite = s.now
  dma : Dma.CountsTo s.par s.dma t.dma
  times : WidthsOk s → ∀ d : Fin 3, (t.fdd[d]).tNext.toNat < 2 ^ s.par.cw ∧ (t.fdd[d]).tLast.toNat < 2 ^ s.par.cw
  steps : ∀ d : Fin 2, t.lastStep[d] = s.lastStep[d] ∨ t.lastStep[d] = some s.now
  present : ∀ k : Dev, (t.acsi[k]).present = true → (s.acsi[k]).present = true ∨ k.val < s.par.acsiNdev
  owner : t.acsiDev = s.acsiDev ∨ t.acsiDev.val < s.par.acsiNdev
  owed : t.acsiPending = s.acsiPending ∨ t.acsiPending = none ∨ t.acsiPending = some s.acsiDev

/-! ### The lines of an ACIA -/

/-- The form of an ACIA's lines is that of its flags and its two slots. -/
theorem LinesOk.of_same {s t : State} {k : Fin 2} (h : LinesOk s k) (hl : (t.acia[k]).lines = (s.acia[k]).lines)
    (htx : t.ag[aciaTxId k] = s.ag[aciaTxId k]) (hrx : t.ag[aciaRxId k] = s.ag[aciaRxId k]) : LinesOk t k := by
  obtain ⟨h1, h2, h3, _⟩ := (Acia.lines_eq_iff _ _).1 hl
  exact ⟨by rw [h1, htx]; exact h.tx, by rw [h2, hrx]; exact h.rx, by rw [h1, h3]; exact h.waiting⟩

/-- A slot other than the one set. -/
theorem ag_set_other (ag : Vector (Option AgEntry) 256) (x : Option AgEntry) {c c' : CbId} (h : c ≠ c') :
    (ag.set c x)[c'] = ag[c'] := Vector.getElem_set_ne _ _ fun e => h (Fin.ext e)

/-- The slots of the ACIAs are the first four. -/
theorem ag_set_aciaTxId (ag : Vector (Option AgEntry) 256) (x : Option AgEntry) {c : CbId} (h : 4 ≤ c.val) (k : Fin 2) :
    (ag.set c x)[aciaTxId k] = ag[aciaTxId k] :=
  ag_set_other ag x fun e => by have : c.val = 2 * k.val := congrArg Fin.val e; omega

theorem ag_set_aciaRxId (ag : Vector (Option AgEntry) 256) (x : Option AgEntry) {c : CbId} (h : 4 ≤ c.val) (k : Fin 2) :
    (ag.set c x)[aciaRxId k] = ag[aciaRxId k] :=
  ag_set_other ag x fun e => by have : c.val = 2 * k.val + 1 := congrArg Fin.val e; omega

/-! ### Effects, built up -/

namespace Effect
variable {i : Instr} {s u t : State}

theorem refl (i : Instr) (s : State) : Effect i s s where
  par := rfl
  now := rfl
  target := .inl rfl
  fired := .inl ⟨rfl, rfl⟩
  entries _ _ _ h := .inl h
  buffers _ := .inl rfl
  lines _ _ h := h
  writes _ := .inl rfl
  dma := .refl
  times h := h.pulses
  steps _ := .inl rfl
  present _ h := .inl h
  owner := .inl rfl
  owed := .inl rfl

/-- A quiet change after an effect. -/
theorem quiet (h : Effect i s u) (q : Quiet u t) : Effect i s t where
  par := q.base.par.trans h.par
  now := q.base.now.trans h.now
  target := by rw [q.base.target]; exact h.target
  fired := by rw [q.base.fireTime, q.base.fireParam]; exact h.fired
  entries := by rw [q.base.ag]; exact h.entries
  buffers := by rw [q.base.cb]; exact h.buffers
  lines hl k hk := (h.lines hl k hk).of_same (q.lines k) (by rw [q.base.ag]) (by rw [q.base.ag])
  writes k := by
    obtain ⟨_, _, _, hw⟩ := (Acia.lines_eq_iff _ _).1 (q.lines k)
    rw [hw]
    exact h.writes k
  dma := h.dma.trans (h.par ▸ q.dma)
  times hw d := by
    obtain ⟨hn, hl⟩ := (Fdd.times_eq_iff _ _).1 (q.times d)
    rw [hn, hl]
    exact h.times hw d
  steps := by rw [q.base.steps]; exact h.steps
  present k := by rw [q.present k]; exact h.present k
  owner := by rw [q.base.owner]; exact h.owner
  owed := by rw [q.base.owed]; exact h.owed

/-- A quiet change is an effect of any instruction. -/
theorem of_quiet (q : Quiet s t) : Effect i s t := (refl i s).quiet q

/-- A slot that is none of the ACIAs' set to nothing or to a fresh entry. -/
theorem setSlot (h : Effect i s u) (c : CbId) (x : Option AgEntry) (hc : Legal i s → 4 ≤ c.val)
    (hx : s.par.Ok → ∀ e, x = some e → Fresh i s c e) : Effect i s { u with ag := u.ag.set c x } :=
  { h with
    entries := fun hp c' e he => by
      by_cases hcc : c = c'
      · subst hcc
        exact .inr (hx hp e (by simpa using he))
      · exact h.entries hp c' e (by rwa [ag_set_other _ _ hcc] at he)
    lines := fun hl k hk =>
      (h.lines hl k hk).of_same rfl (ag_set_aciaTxId _ _ (hc hl) k) (ag_set_aciaRxId _ _ (hc hl) k) }

theorem cancel (h : Effect i s u) (c : CbId) (hc : Legal i s → 4 ≤ c.val) : Effect i s (u.cancel c) :=
  h.setSlot c none hc fun _ _ e => by cases e

theorem schedule (h : Effect i s u) (c : CbId) (d : Clock) (p : Param) (hc : Legal i s → 4 ≤ c.val)
    (hf : s.par.Ok → Fresh i s c { fireTime := s.par.tadd s.now d, param := p }) : Effect i s (u.schedule c d p) :=
  h.setSlot c (some { fireTime := u.par.tadd u.now d, param := p }) hc fun hp e he => by
    cases he
    rw [h.par, h.now]
    exact hf hp

end Effect
end Sys2Proof.Machine
end

section
namespace Sys2Proof.Machine

/-! ### Fresh entries -/

/-- A delay given as a number of cycles. -/
theorem tadd_cycles {p : Params} (hp : p.cw ≤ 64) (a : Clock) (n : Nat) :
    p.tadd a (p.cycles n) = p.cycles (a.toNat + n) := by
  unfold Params.tadd
  rw [Params.cycles_toNat p hp, Params.cycles, Params.cycles, Nat.add_mod_mod]

/-- Every power of the clock's width divides the 64 bits that carry it. -/
theorem two_pow_cw_dvd {p : Params} (hp : p.cw ≤ 64) : 2 ^ p.cw ∣ 2 ^ 64 := Nat.pow_dvd_pow 2 hp

/-- Scheduling at a time less `NOW` is scheduling at that time: the difference wraps back. -/
theorem tadd_cycles_sub {p : Params} (hp : p.cw ≤ 64) (now : Clock) (n : Nat) :
    p.tadd now (p.cycles n - now) = p.cycles n := by
  have hdvd := two_pow_cw_dvd hp
  have hback : (now.toNat + (p.cycles n - now).toNat) % 2 ^ 64 = (p.cycles n).toNat := by
    have hn := now.isLt
    have hc := (p.cycles n).isLt
    rw [BitVec.toNat_sub]
    omega
  have hmod : (now.toNat + (p.cycles n - now).toNat) % 2 ^ p.cw = n % 2 ^ p.cw := by
    rw [← Nat.mod_mod_of_dvd _ hdvd, hback, Params.cycles_toNat p hp, Nat.mod_mod]
  simp only [Params.tadd, Params.cycles] at hmod ⊢
  rw [hmod]

/-- The chips' identities are below `NCB`. -/
theorem chip_lt_ncb {p : Params} (hp : p.Ok) {c : CbId} (hc : c.val < 9) : c.val < p.ncb := by
  obtain ⟨h1, h2, _⟩ := hp.identities
  omega

/-- The number of an ACIA or a drive fits a `param`. -/
theorem unit_param_lt {p : Params} (hp : p.Ok) (k : Fin 2) : (BitVec.ofNat 32 k.val).toNat < 2 ^ p.pw := by
  have h1 : 2 ^ 1 ≤ 2 ^ p.pw := Nat.pow_le_pow_right (by decide) hp.pw.1
  have h2 := Nat.mod_le k.val (2 ^ 32)
  rw [BitVec.toNat_ofNat]
  omega

/-- An entry that a chip puts one of its delays after `NOW`. -/
theorem Fresh.chip {i : Instr} {s : State} {n : Nat} (hp : s.par.Ok) (hn : n ∈ chipDelays i s) {c : CbId}
    (hc : c.val < 9) {param : Param} (hparam : Legal i s → WidthsOk s → param.toNat < 2 ^ s.par.pw) :
    Fresh i s c { fireTime := s.par.tadd s.now (s.par.cycles n), param := param } :=
  ⟨.inr (.inl ⟨n, hn, tadd_cycles hp.cw.2 _ _⟩), chip_lt_ncb hp hc, hparam⟩

/-- An entry that a chip puts one of its delays after the entry that fired. -/
theorem Fresh.rearm {i : Instr} {s : State} {n : Nat} (hp : s.par.Ok) (hn : n ∈ chipDelays i s) {c : CbId}
    (hc : c.val < 9) (hi : i = callbackOf s.par c) {fired : AgEntry} (hfired : s.ag[c] = some fired) {param : Param}
    (hparam : Legal i s → WidthsOk s → param.toNat < 2 ^ s.par.pw) :
    Fresh i s c { fireTime := s.par.tadd s.now (s.par.cycles (fired.fireTime.toNat + n) - s.now), param := param } :=
  ⟨.inr (.inr ⟨n, hn, fired, hi, hfired, tadd_cycles_sub hp.cw.2 _ _⟩), chip_lt_ncb hp hc, hparam⟩

/-! ### The ACIA -/

theorem aciaTxId_ne_aciaRxId (k : Fin 2) : aciaTxId k ≠ aciaRxId k := fun e => by
  have : 2 * k.val = 2 * k.val + 1 := congrArg Fin.val e
  omega

/-- The slots of two ACIAs are different. -/
theorem acia_slots_ne {j k : Fin 2} (h : j ≠ k) : aciaTxId j ≠ aciaTxId k ∧ aciaTxId j ≠ aciaRxId k ∧
    aciaRxId j ≠ aciaTxId k ∧ aciaRxId j ≠ aciaRxId k := by
  have hv : j.val ≠ k.val := fun e => h (Fin.ext e)
  refine ⟨fun e => ?_, fun e => ?_, fun e => ?_, fun e => ?_⟩ <;> have e := congrArg Fin.val e <;>
    simp only [aciaTxId, aciaRxId] at e <;> omega

/-- `TransmitTDR` puts the completion one byte time from `NOW`. -/
theorem transmitTdr_ag (k : Fin 2) (s : State) :
    (transmitTdr k s).ag = s.ag.set (aciaTxId k) (some
      { fireTime := s.par.tadd s.now (s.par.cycles ((s.acia[k]).byteCycles s.par)), param := BitVec.ofNat 32 k.val }) := by
  simp [transmitTdr, checkIrq, State.schedule, Acia.transmissionTime, Acia.byteCycles]

/-- `TransmitTDR` makes the transmit line busy and the transmitter ready. -/
theorem transmitTdr_lines (k : Fin 2) (s : State) :
    ((transmitTdr k s).acia[k]).lines = (true, (s.acia[k]).lineBusyRx, true, (s.acia[k]).lastTxWrite) := by
  simp [transmitTdr, checkIrq, Acia.lines]

theorem modAcia_other (s : State) {j k : Fin 2} (g : Acia → Acia) (h : j ≠ k) : (s.modAcia k g).acia[j] = s.acia[j] :=
  Vector.getElem_set_ne k.isLt j.isLt fun e => h (Fin.ext e.symm)

theorem transmitTdr_other (s : State) {j k : Fin 2} (h : j ≠ k) : (transmitTdr k s).acia[j] = s.acia[j] := by
  unfold transmitTdr
  dsimp only
  rw [State.schedule_acia, modAcia_other _ _ h, checkIrq_other _ _ _ h, modAcia_other _ _ h]

@[simp] theorem Acia.deliver_leaves (a : Acia) : a.deliver.lineBusyTx = a.lineBusyTx ∧ a.deliver.lineBusyRx = false ∧
    a.deliver.tdre = a.tdre ∧ a.deliver.lastTxWrite = a.lastTxWrite := by
  unfold Acia.deliver
  split <;> exact ⟨rfl, rfl, rfl, rfl⟩

theorem receiveByte_acia (k : Fin 2) (b : Byte) (s : State) :
    (receiveByte k b s).acia = (s.modAcia k fun a => { a with rdrs := b, lineBusyRx := true }).acia := rfl

/-- An accepted byte is complete one byte time from `NOW`. -/
theorem receiveByte_ag (k : Fin 2) (b : Byte) (s : State) :
    (receiveByte k b s).ag = s.ag.set (aciaRxId k) (some
      { fireTime := s.par.tadd s.now (s.par.cycles ((s.acia[k]).byteCycles s.par)), param := BitVec.ofNat 32 k.val }) := by
  simp [receiveByte, State.schedule, Acia.transmissionTime, Acia.byteCycles]

namespace Effect
variable {i : Instr} {s t v : State}

/-- An operation of one ACIA: the other's flags, the slots of all others and the other chips stay. -/
theorem of_line (k : Fin 2) (hbase : SameBase { s with ag := t.ag } t)
    (hchips : t.dma = s.dma ∧ t.fdd = s.fdd ∧ t.acsi = s.acsi)
    (hother : ∀ j, j ≠ k → (t.acia[j]).lines = (s.acia[j]).lines)
    (hslots : ∀ c : CbId, c ≠ aciaTxId k → c ≠ aciaRxId k → t.ag[c] = s.ag[c])
    (hentries : s.par.Ok → ∀ (c : CbId) (e : AgEntry), t.ag[c] = some e → s.ag[c] = some e ∨ Fresh i s c e)
    (hown : LinesOk s k → LinesOk t k)
    (hwrite : (t.acia[k]).lastTxWrite = (s.acia[k]).lastTxWrite ∨ (t.acia[k]).lastTxWrite = s.now) : Effect i s t := by
  obtain ⟨hdma, hfdd, hacsi⟩ := hchips
  refine
    { refl i s with
      par := hbase.par
      now := hbase.now
      target := .inl hbase.target
      fired := .inl ⟨hbase.fireTime, hbase.fireParam⟩
      entries := hentries
      buffers := fun b => .inl (by rw [hbase.cb])
      lines := fun _ j hj => ?_
      writes := fun j => ?_
      dma := hdma ▸ .refl
      times := fun hw => by rw [hfdd]; exact hw.pulses
      steps := fun d => .inl (by rw [hbase.steps])
      present := fun d => by rw [hacsi]; exact .inl
      owner := .inl hbase.owner
      owed := .inl hbase.owed }
  · by_cases hjk : j = k
    · exact hjk ▸ hown (hjk ▸ hj)
    · obtain ⟨h1, h2, h3, h4⟩ := acia_slots_ne hjk
      exact hj.of_same (hother j hjk) (hslots _ h1 h2) (hslots _ h3 h4)
  · by_cases hjk : j = k
    · exact hjk ▸ hwrite
    · exact .inl ((Acia.lines_eq_iff _ _).1 (hother j hjk)).2.2.2

/-- An operation of one ACIA that sets one of its slots. -/
theorem of_line_slot (k : Fin 2) {c : CbId} {x : Option AgEntry} (hc : c = aciaTxId k ∨ c = aciaRxId k)
    (hag : t.ag = s.ag.set c x) (hx : s.par.Ok → ∀ e, x = some e → Fresh i s c e)
    (hbase : SameBase { s with ag := t.ag } t) (hchips : t.dma = s.dma ∧ t.fdd = s.fdd ∧ t.acsi = s.acsi)
    (hother : ∀ j, j ≠ k → (t.acia[j]).lines = (s.acia[j]).lines) (hown : LinesOk s k → LinesOk t k)
    (hwrite : (t.acia[k]).lastTxWrite = (s.acia[k]).lastTxWrite ∨ (t.acia[k]).lastTxWrite = s.now) : Effect i s t := by
  have hkept : ∀ c' : CbId, c' ≠ c → t.ag[c'] = s.ag[c'] := fun c' h => by rw [hag, ag_set_other _ _ h.symm]
  refine of_line k hbase hchips hother (fun c' h1 h2 => hkept c' fun e => ?_) (fun hp c' e he => ?_) hown hwrite
  · rcases hc with rfl | rfl
    · exact h1 e
    · exact h2 e
  · by_cases h : c' = c
    · subst h
      exact .inr (hx hp e (by simpa [hag] using he))
    · exact .inl (by rwa [hkept c' h] at he)

/-- `TransmitTDR` in a state whose slot of the transmitter may already be free. -/
theorem transmit {k : Fin 2} (hn : (s.acia[k]).byteCycles s.par ∈ chipDelays i s)
    (hbase : SameBase { s with ag := v.ag } v) (hchips : v.dma = s.dma ∧ v.fdd = s.fdd ∧ v.acsi = s.acsi)
    (hother : ∀ j, j ≠ k → v.acia[j] = s.acia[j])
    (hslots : ∀ x, v.ag.set (aciaTxId k) x = s.ag.set (aciaTxId k) x)
    (hrx : (v.acia[k]).lineBusyRx = (s.acia[k]).lineBusyRx)
    (hdivide : (v.acia[k]).clockDivide = (s.acia[k]).clockDivide)
    (hwrite : (v.acia[k]).lastTxWrite = (s.acia[k]).lastTxWrite ∨ (v.acia[k]).lastTxWrite = s.now) :
    Effect i s (transmitTdr k v) := by
  have hlines := transmitTdr_lines k v
  simp only [Acia.lines, Prod.mk.injEq] at hlines
  obtain ⟨htx, hrx', htdre, hlast⟩ := hlines
  obtain ⟨hpar, hnow, h3, h4, h5, _, h7, h8, h9, h10⟩ := hbase
  have hbyte : (v.acia[k]).byteCycles v.par = (s.acia[k]).byteCycles s.par := by
    rw [Acia.byteCycles, Acia.byteCycles, hdivide, hpar]
  have hag := transmitTdr_ag k v
  rw [hbyte, hpar, hnow, hslots] at hag
  refine of_line_slot k (.inl rfl) hag (fun hp e he => ?_)
    ⟨by simpa, by simpa, by simpa, by simpa, by simpa, rfl, by simpa, by simpa, by simpa, by simpa⟩
    (by simpa using hchips) (fun j hj => by rw [transmitTdr_other _ hj, hother j hj]) (fun hs => ⟨?_, ?_, fun _ => htx⟩)
    (by rw [hlast]; exact hwrite)
  · cases he
    exact Fresh.chip hp hn (by have := k.isLt; simp only [aciaTxId]; omega) fun hl _ => unit_param_lt hl.ok k
  · rw [htx, hag]
    simp
  · rw [hrx', hrx, hag, ag_set_other _ _ (aciaTxId_ne_aciaRxId k)]
    exact hs.rx

/-- `WriteTDR` (42_acia.md R199, R200). -/
theorem writeTdr (k : Fin 2) (x : Byte) (hn : (s.acia[k]).byteCycles s.par ∈ chipDelays i s) :
    Effect i s (writeTdr k x s) := by
  unfold Machine.writeTdr
  dsimp only
  refine .quiet ?_ (.checkIrq _ _)
  split
  · rename_i hbusy
    refine of_line k (by constructor <;> rfl) ⟨rfl, rfl, rfl⟩ (fun j hj => by rw [modAcia_other _ _ hj])
      (fun _ _ _ => rfl) (fun _ _ _ => .inl) (fun hs => ⟨?_, ?_, fun _ => hbusy⟩) (.inr (by simp))
    · simpa using hs.tx
    · simpa using hs.rx
  · exact transmit hn (by constructor <;> rfl) ⟨rfl, rfl, rfl⟩ (fun j hj => modAcia_other _ _ hj) (fun _ => rfl)
      (by simp) (by simp) (.inr (by simp))

/-- `AciaTxDone` after its entry has been taken (42_acia.md R206). -/
theorem txDone (k : Fin 2) (hn : (s.acia[k]).byteCycles s.par ∈ chipDelays i s) :
    Effect i s (aciaTxDone k (s.cancel (aciaTxId k))) := by
  unfold aciaTxDone
  dsimp only
  refine .quiet ?_ (.checkIrq _ _)
  split
  · rename_i hready
    have hready : (s.acia[k]).tdre = true := hready
    refine of_line_slot k (.inl rfl) rfl (fun _ _ h => by cases h) (by constructor <;> rfl) ⟨rfl, rfl, rfl⟩
      (fun j hj => by rw [modAcia_other _ _ hj]; rfl) (fun hs => ⟨by simp, ?_, fun h => ?_⟩) (.inl (by simp))
    · have hrx := hs.rx
      rw [← ag_set_other s.ag none (aciaTxId_ne_aciaRxId k)] at hrx
      simpa using hrx
    · simp_all
  · exact transmit hn (by constructor <;> rfl) ⟨rfl, rfl, rfl⟩ (fun _ _ => rfl) (fun x => by simp) rfl rfl (.inl rfl)

/-- `AciaRxDone` after its entry has been taken (42_acia.md R209). -/
theorem rxDone (k : Fin 2) : Effect i s (aciaRxDone k (s.cancel (aciaRxId k))) := by
  unfold aciaRxDone
  refine .quiet ?_ (.checkIrq _ _)
  refine of_line_slot k (.inr rfl) rfl (fun _ _ h => by cases h) (by constructor <;> rfl) ⟨rfl, rfl, rfl⟩
    (fun j hj => by rw [modAcia_other _ _ hj]; rfl) (fun hs => ⟨?_, by simp, ?_⟩) (.inl (by simp))
  · have htx := hs.tx
    rw [← ag_set_other s.ag none (aciaTxId_ne_aciaRxId k).symm] at htx
    simpa using htx
  · simpa using hs.waiting

/-- An accepted ACIA_RXBYTE (42_acia.md R208). -/
theorem receiveByte (k : Fin 2) (b : Byte) (hn : (s.acia[k]).byteCycles s.par ∈ chipDelays i s) :
    Effect i s (receiveByte k b s) := by
  refine of_line_slot k (.inr rfl) (receiveByte_ag k b s) (fun hp e he => ?_) (by constructor <;> rfl) ⟨rfl, rfl, rfl⟩
    (fun j hj => by rw [receiveByte_acia, modAcia_other _ _ hj]) (fun hs => ⟨?_, ?_, ?_⟩)
    (.inl (by simp [receiveByte_acia]))
  · cases he
    exact Fresh.chip hp hn (by have := k.isLt; simp only [aciaRxId]; omega) fun hl _ => unit_param_lt hl.ok k
  · rw [receiveByte_ag, receiveByte_acia, ag_set_other _ _ (aciaTxId_ne_aciaRxId k).symm]
    simpa using hs.tx
  · rw [receiveByte_ag, receiveByte_acia]
    simp
  · rw [receiveByte_acia]
    simpa using hs.waiting

/-- `AciaReset` (42_acia.md R192). -/
theorem aciaReset (k : Fin 2) : Effect i s (aciaReset k s) := by
  unfold Machine.aciaReset
  refine .quiet ?_ (.checkIrq _ _)
  have hkept : ∀ c : CbId, c ≠ aciaTxId k → c ≠ aciaRxId k →
      ((s.ag.set (aciaTxId k) none).set (aciaRxId k) none)[c] = s.ag[c] := fun c h1 h2 => by
    rw [ag_set_other _ _ h2.symm, ag_set_other _ _ h1.symm]
  have hfree : ((s.ag.set (aciaTxId k) none).set (aciaRxId k) none)[aciaTxId k] = none := by
    rw [ag_set_other _ _ (aciaTxId_ne_aciaRxId k).symm]
    simp
  refine of_line k (by constructor <;> rfl) ⟨rfl, rfl, rfl⟩
    (fun j hj => by rw [State.cancel_acia, State.cancel_acia, modAcia_other _ _ hj]) hkept (fun _ c e he => ?_)
    (fun _ => ⟨?_, by simp [Acia.clearFlags], by simp [Acia.clearFlags]⟩) (.inl (by simp [Acia.clearFlags]))
  · by_cases h1 : c = aciaTxId k
    · subst h1
      exact absurd (hfree.symm.trans he) (by simp)
    · by_cases h2 : c = aciaRxId k
      · subst h2
        simp at he
      · exact .inl ((hkept c h1 h2).symm.trans he)
  · have hidle : (((s.modAcia k Acia.clearFlags).cancel (aciaTxId k)).cancel (aciaRxId k)).ag[aciaTxId k] = none := hfree
    rw [hidle]
    simp [Acia.clearFlags]

/-- `SetControl` (42_acia.md R197, R198). -/
theorem setControl (k : Fin 2) (x : Byte) : Effect i s (setControl k x s) := by
  unfold Machine.setControl
  dsimp only
  refine .quiet (.quiet ?_ (.modAcia _ k (g := Acia.control x) fun _ => rfl)) (.checkIrq k _)
  split
  · exact aciaReset k
  · exact refl i s

end Effect
end Sys2Proof.Machine
end

section
namespace Sys2Proof.Machine

theorem Quiet.emit (s : State) (e : Event) : Quiet s (s.emit e) := of_same (by constructor <;> simp) (by simp) (by simp)

theorem Quiet.finishDispatch (s : State) : Quiet s (finishDispatch s) :=
  of_same (by constructor <;> simp) (by simp) (by simp)

namespace Effect
variable {i : Instr} {s u t : State}

/-! ### The drives -/

/-- New times for a drive, within their width. -/
theorem setTimes (h : Effect i s u) (d : Fin 3) (g : Fdd → Fdd)
    (hg : WidthsOk s → (g u.fdd[d]).tNext.toNat < 2 ^ s.par.cw ∧ (g u.fdd[d]).tLast.toNat < 2 ^ s.par.cw) :
    Effect i s (u.modFdd d g) :=
  { h with
    lines := fun hl k hk => (h.lines hl k hk).of_same rfl rfl rfl
    times := fun hw j => by
      by_cases hj : d = j
      · subst hj
        simpa using hg hw
      · have hne : d.val ≠ j.val := fun e => hj (Fin.ext e)
        simpa [hne] using h.times hw j }

/-- The motor switched on (44_floppy.md R266). -/
theorem motorOn (d : Fin 2) (hn : (s.fdd[driveSlot d]).rotationCycles s.par ∈ chipDelays i s) :
    Effect i s (motorOn d s) := by
  have hd := d.isLt
  refine ((refl i s).setTimes (driveSlot d) _ fun hw => ?_).schedule (fddIndexId d) _ _ (fun _ => Nat.le_add_right 4 _)
    fun hp => .chip hp hn (by simp only [fddIndexId]; omega) fun hl _ => unit_param_lt hl.ok d
  exact ⟨Params.cycles_lt _ _, hw.now⟩

/-- The motor switched off (44_floppy.md R266). -/
theorem motorOff (d : Fin 2) : Effect i s (motorOff d s) :=
  (of_quiet (.modFdd s (driveSlot d) (g := fun f => { f with motor := false }) fun _ => rfl)).cancel _
    fun _ => Nat.le_add_right 4 _

/-- An index pulse after its entry has been taken (44_floppy.md R268). -/
theorem indexPulse (d : Fin 2) {e : AgEntry} (hi : i = callbackOf s.par (fddIndexId d))
    (he : s.ag[fddIndexId d] = some e) (hn : (s.fdd[driveSlot d]).rotationCycles s.par ∈ chipDelays i s) :
    Effect i s (indexPulse d e.fireTime (s.cancel (fddIndexId d))) := by
  have hd := d.isLt
  have h4 : 4 ≤ (fddIndexId d).val := Nat.le_add_right 4 _
  refine ((((refl i s).cancel (fddIndexId d) fun _ => h4).setTimes (driveSlot d) _ fun hw => ?_).schedule (fddIndexId d)
    _ _ (fun _ => h4) fun hp => ?_).quiet (.emit _ _)
  · exact ⟨Params.cycles_lt _ _, (hw.entries _ _ he).2.1⟩
  · have := Fresh.rearm hp hn (c := fddIndexId d) (param := BitVec.ofNat 32 d.val) (by simp only [fddIndexId]; omega)
      hi he fun hl _ => unit_param_lt hl.ok d
    rwa [← tadd_cycles hp.cw.2] at this

/-- A step of the head (44_floppy.md R271). -/
theorem stepHead (d : Fin 2) (dir : Bool) : Effect i s (stepHead d dir s) :=
  have h := of_quiet (i := i) (.modFdd s (driveSlot d) (g := fun f => { f with track := stepTrack s.par f.track dir })
    fun _ => rfl)
  { h with
    lines := fun hl k hk => (h.lines hl k hk).of_same rfl rfl rfl
    steps := fun j => by
      by_cases hj : d = j
      · subst hj
        exact .inr (by simp [Machine.stepHead])
      · have hne : d.val ≠ j.val := fun e => hj (Fin.ext e)
        exact .inl (by simp [Machine.stepHead, hne]) }

/-- A transfer's completion (44_floppy.md R273). -/
theorem scheduleTransfer (h : Effect i s u) (d : Fin 2) (size : Nat)
    (hcpb : (u.fdd[driveSlot d]).cpb = (s.fdd[driveSlot d]).cpb)
    (hn : size * (s.fdd[driveSlot d]).cpb.toNat ∈ chipDelays i s) : Effect i s (scheduleTransfer d size u) := by
  have hd := d.isLt
  refine h.schedule (fddXferId d) _ _ (fun _ => by simp only [fddXferId]; omega) fun hp => ?_
  rw [hcpb, h.par]
  exact .chip hp hn (by simp only [fddXferId]; omega) fun hl _ => unit_param_lt hl.ok d

/-! ### The ACSI devices -/

/-- A device made present only below the count. -/
theorem setPresent (h : Effect i s u) (k : Dev) (g : AcsiDev → AcsiDev)
    (hg : (g u.acsi[k]).present = true → (u.acsi[k]).present = true ∨ k.val < s.par.acsiNdev) :
    Effect i s (u.modAcsi k g) :=
  { h with
    lines := fun hl j hj => (h.lines hl j hj).of_same rfl rfl rfl
    present := fun j hj => by
      by_cases hk : k = j
      · subst hk
        exact (hg (by simpa using hj)).elim (h.present k) .inr
      · have hne : k.val ≠ j.val := fun e => hk (Fin.ext e)
        exact h.present j (by simpa [hne] using hj) }

/-- The bus claimed by a device below the count. -/
theorem setOwner (h : Effect i s u) {k : Dev} (hk : k.val < s.par.acsiNdev) : Effect i s { u with acsiDev := k } :=
  { h with
    lines := fun hl j hj => (h.lines hl j hj).of_same rfl rfl rfl
    owner := .inr hk }

/-- The dispatch owed by nobody, or by the owner. -/
theorem setOwed (h : Effect i s u) {o : Option Dev} (ho : o = none ∨ o = some s.acsiDev) :
    Effect i s { u with acsiPending := o } :=
  { h with
    lines := fun hl j hj => (h.lines hl j hj).of_same rfl rfl rfl
    owed := .inr ho }

/-- The start of a transfer of a device (45_acsi.md R320). -/
theorem startTransfer (h : Quiet s u) (k : Dev) (dir : Dir) (lba : BitVec 24) (count : Byte)
    (hn : s.par.acsiBlockCycles.toNat ∈ chipDelays i s)
    (hk : Legal i s → s.acsiPending = some k) : Effect i s (startTransfer k dir lba count u) := by
  unfold Machine.startTransfer
  split
  · exact of_quiet ((h.trans (.acsiReport _ _ _ _)).trans (.acsiFinish _ _))
  · have started := (h.trans (.setAx u { dir := dir, lba := lba.setWidth 32, left := count.toNat })).trans
      (.modAcsi _ k (g := fun a => { a with curLba := lba }) fun _ => rfl)
    dsimp only
    split
    · exact of_quiet (started.trans (.acsiFinish _ _))
    · split
      · refine (of_quiet started).schedule acsiBlockId _ _ (fun _ => by decide) fun hp => ?_
        rw [started.base.par]
        refine ⟨.inr (.inl ⟨_, hn, rfl⟩), chip_lt_ncb hp (by decide), fun hl hw => ?_⟩
        have hdev := hw.owed k (hk hl)
        have hfit := hl.ok.params
        have := Nat.mod_le k.val (2 ^ 32)
        rw [BitVec.toNat_ofNat]
        omega
      · exact of_quiet ((started.trans (.moveBlocks _ _ _)).trans (.endTransfer _ _))

/-- A block callback after its entry has been taken (45_acsi.md R319). -/
theorem blockDone {e : AgEntry} (hi : i = callbackOf s.par acsiBlockId) (he : s.ag[acsiBlockId] = some e)
    (hn : s.par.acsiBlockCycles.toNat ∈ chipDelays i s) :
    Effect i s (acsiBlockDone (blockDevice e.param) e.fireTime (s.cancel acsiBlockId)) := by
  unfold acsiBlockDone
  dsimp only
  have taken := (refl i s).cancel acsiBlockId fun _ => by decide
  have moved := Quiet.moveBlock (blockDevice e.param) (s.cancel acsiBlockId)
  split
  · refine (taken.quiet moved).schedule acsiBlockId _ _ (fun _ => by decide) fun hp => ?_
    rw [moved.base.now]
    refine Fresh.rearm hp hn (by decide) hi he fun hl hw => ?_
    have hfit := (hw.entries _ _ he).2.2
    have hle : (blockDevice e.param).val ≤ e.param.toNat := Nat.mod_le _ _
    have := Nat.mod_le (blockDevice e.param).val (2 ^ 32)
    rw [BitVec.toNat_ofNat]
    omega
  · exact taken.quiet (moved.trans (.endTransfer _ _))

/-! ### The dispatcher -/

/-- The loop started at `NOW` (40_agenda.md R133). -/
theorem startLoop : Effect i s { s with advTarget := s.now, disp := .scan } :=
  { refl i s with
    target := .inr rfl
    lines := fun _ _ h => h.of_same rfl rfl rfl }

/-- An external entry taken and handed to the host (40_agenda.md R133). -/
theorem handOver {c : CbId} {e : AgEntry} (he : s.ag[c] = some e) (hc : Legal i s → 4 ≤ c.val) (id : BitVec 8) :
    Effect i s { s.cancel c with fireCb := id, fireParam := e.param, fireTime := e.fireTime, disp := .waitAck } :=
  have h := (refl i s).cancel c hc
  { h with
    fired := .inr ⟨c, e, he, rfl, rfl⟩
    lines := fun hl k hk => (h.lines hl k hk).of_same rfl rfl rfl }

/-! ### The buffers -/

theorem setBuffer {b : BufId} {c' : CircBuf} (hb : b.val < s.par.nbuf) (hc : CircBuf.Moves s.par s.cb[b] c') :
    Effect i s { s with cb := s.cb.set b c' } :=
  { refl i s with
    lines := fun _ _ h => h.of_same rfl rfl rfl
    buffers := fun j => by
      by_cases hj : b = j
      · subst hj
        exact .inr ⟨hb, by simpa using hc⟩
      · have hne : b.val ≠ j.val := fun e => hj (Fin.ext e)
        exact .inl (by simp [hne]) }

end Effect
end Sys2Proof.Machine
end

section
namespace Sys2Proof.Machine

/-! ### The chips' delays -/

theorem chipDelays_regWr (unit : BitVec 8) (reg : BitVec 16) (v : BitVec 32) (now : Clock) (s : State) :
    chipDelays (.regWr unit reg v now) s =
      if unit = 1 ∧ reg = 1 then [(s.acia[(0 : Fin 2)]).byteCycles s.par]
      else if unit = 2 ∧ reg = 1 then [(s.acia[(1 : Fin 2)]).byteCycles s.par] else [] := rfl

theorem chipDelays_aciaRxbyte (inst : BitVec 8) (b : Byte) (now : Clock) (s : State) :
    chipDelays (.aciaRxbyte inst b now) s =
      (index 2 inst).toList.map fun k : Fin 2 => (s.acia[k]).byteCycles s.par := rfl

theorem chipDelays_fddMotor (drive : BitVec 8) (on : Bool) (now : Clock) (s : State) :
    chipDelays (.fddMotor drive on now) s =
      (index 2 drive).toList.map fun d : Fin 2 => (s.fdd[driveSlot d]).rotationCycles s.par := rfl

theorem chipDelays_fddRead (drive : BitVec 8) (side : Bool) (now : Clock) (s : State) :
    chipDelays (.fddRead drive side now) s = (index 2 drive).toList.flatMap fun d : Fin 2 =>
      ((sectorUnderHead d side now s).map fun r => r.2 * (s.fdd[driveSlot d]).cpb.toNat).toList := rfl

theorem chipDelays_fddWrite (drive : BitVec 8) (side : Bool) (now : Clock) (s : State) :
    chipDelays (.fddWrite drive side now) s = chipDelays (.fddRead drive side now) s := rfl

/-! ### Which instruction does what -/

/-- An answer is an effect of the instruction in the state. -/
def Does (i : Instr) (s : State) (r : Result) : Prop := ∀ t, r = .next t → Effect i s t

/-- The state an instruction acts in: the one it finds, or that one at the instruction's own time. -/
def Clocked (i : Instr) (s u : State) : Prop :=
  u = s ∨ ∃ now, instrTime i = some now ∧ 0 ≤ s.par.sdiff now s.now ∧ u = { s with now := now }

/-- An answer is an effect of the instruction in the state it acts in. -/
def Runs (i : Instr) (s : State) (r : Result) : Prop := ∀ t, r = .next t → ∃ u, Clocked i s u ∧ Effect i u t

section
variable {i : Instr} {s u : State} {r : Result}

theorem Does.next (h : Effect i s u) : Does i s (.next u) := by
  rintro t ⟨⟩
  exact h

theorem Does.respond {flags rcb : BitVec 8} {data : BitVec 32} {time : Clock} (h : Effect i s u) :
    Does i s (respond flags rcb data time u) := .next (h.quiet (.answer _ _))

theorem Does.raise {e : ErrCode} (h : Effect i s u) : Does i s (raise e u) := .next (h.quiet (.refuse _ _))

theorem Does.refused {e : ErrCode} : Does i s (Machine.raise e s) := .raise (.refl i s)

theorem Does.acsiAnswer (h : Effect i s u) : Does i s (acsiAnswer u) := .respond (h.setOwed (.inl rfl))

theorem Does.select {n m : Nat} {sel : BitVec 8} {body : Fin m → Result}
    (h : ∀ k : Fin m, k.val < n → index n sel = some k → Does i s (body k)) : Does i s (select n sel s body) := by
  unfold Machine.select
  split
  · exact .refused
  · rename_i k hk
    exact h k ((index_some.1 hk).2 ▸ (index_some.1 hk).1) hk

theorem Does.external {cb : BitVec 8} {body : CbId → Result}
    (h : ∀ c : CbId, cb.toNat = c.val → c.val < s.par.ncb → (Legal i s → 4 ≤ c.val) → Does i s (body c)) :
    Does i s (external cb s body) := by
  refine .select fun c hc hindex => ?_
  split
  · exact .refused
  · refine h c (index_some.1 hindex).2 hc fun hl => ?_
    have := hl.ok.identities.1
    omega

theorem Does.critical {b : BufId} (hb : b.val < s.par.nbuf) {body : CircBuf → CircBuf × Word128}
    (h : CircBuf.Moves s.par s.cb[b] { (body { s.cb[b] with mx := true }).1 with mx := false }) :
    Does i s (critical b body s) := by
  intro t ht
  rcases critical_next ht with ⟨_, rfl⟩ | ⟨_, rfl⟩
  · exact .refl i _
  · exact (Effect.setBuffer hb h).quiet (.answer _ _)

theorem unlessInert_moves {p : Params} {c : CircBuf} {body : CircBuf → CircBuf × Word128}
    (h : c.cap ≠ 0 → CircBuf.Moves p c { (body { c with mx := true }).1 with mx := false }) :
    CircBuf.Moves p c { (unlessInert body { c with mx := true }).1 with mx := false } := by
  unfold unlessInert
  split
  · exact .same
  · exact h ‹_›

theorem Does.onBuffer {buf : BitVec 8} {body : CircBuf → CircBuf × Word128}
    (h : ∀ c : CircBuf, c.cap ≠ 0 → CircBuf.Moves s.par c { (body { c with mx := true }).1 with mx := false }) :
    Does i s (onBuffer buf body s) :=
  .select fun _ hb _ => .critical hb (unlessInert_moves (h _))

theorem Does.dispatchEntry {c : CbId} {body : AgEntry → State → Result}
    (h : ∀ e, s.ag[c] = some e → Does i s (body e (s.cancel c))) : Does i s (dispatchEntry c body s) := by
  unfold Machine.dispatchEntry
  split
  · exact .next (.refl i s)
  · exact h _ ‹_›

theorem Runs.of_does (h : Does i s r) : Runs i s r := fun t ht => ⟨s, .inl rfl, h t ht⟩

theorem Runs.select {n m : Nat} {sel : BitVec 8} {body : Fin m → Result}
    (h : ∀ k : Fin m, index n sel = some k → Runs i s (body k)) : Runs i s (select n sel s body) := by
  unfold Machine.select
  split
  · exact .of_does .refused
  · exact h _ ‹_›

theorem Runs.timed {now : Clock} {body : State → Result} (hi : instrTime i = some now)
    (h : Does i { s with now := now } (body { s with now := now })) : Runs i s (timed now s body) := by
  intro t ht
  rcases timed_next ht with ⟨_, rfl⟩ | ⟨hnow, ht⟩
  · exact ⟨s, .inl rfl, .of_quiet (.refuse _ _)⟩
  · exact ⟨_, .inr ⟨now, hi, hnow, rfl⟩, h t ht⟩

/-! ### Registers -/

theorem does_readRule (reg : ReadReg) : Does i s (readRule reg s) := by
  cases reg
  case aciaRdr k => exact .respond (.of_quiet (.readRdr k s))
  case fddCond => exact .respond (.of_quiet (.setPin _ _ _))
  case acsibusStatus => exact .respond (.of_quiet (.setPin _ _ _))
  case fddBytepos d =>
    unfold readRule readBytepos
    dsimp only
    split <;> exact .respond (.refl i s)
  all_goals exact .respond (.refl i s)

theorem does_writeCpb (d : Fin 2) (v : BitVec 32) : Does i s (writeCpb d v s) := by
  unfold writeCpb
  split
  · exact .refused
  · split
    · exact .refused
    · exact .respond (.of_quiet (.modFdd s (driveSlot d) (g := fun f => { f with cpb := v }) fun _ => rfl))

theorem does_acsiBusWrite (v : Byte) : Does i s (acsiBusWrite v s) := by
  have taken : Effect i s (s.modAcsi s.acsiDev (AcsiDev.take v)) := .of_quiet <| .modAcsi _ _ fun a => by
    unfold AcsiDev.take
    split <;> rfl
  unfold acsiBusWrite
  dsimp only
  split
  · split
    · exact .next (taken.setOwed (.inr rfl))
    · exact .respond taken
  · split
    · exact .respond (.refl i s)
    · split
      · exact .respond (.refl i s)
      · rename_i k hk
        split
        · have hlt : k.val < s.par.acsiNdev := (index_some.1 hk).2 ▸ (index_some.1 hk).1
          exact .respond (((Effect.refl i s).setOwner hlt).quiet
            (.modAcsi _ k (g := AcsiDev.claim v) fun _ => rfl))
        · exact .respond (.refl i s)

theorem does_writeRule (reg : WriteReg) (v : BitVec 32) (ha : reg.accepts s.par v = true)
    (hn : ∀ k, reg = .aciaTdr k → (s.acia[k]).byteCycles s.par ∈ chipDelays i s) : Does i s (writeRule reg v s) := by
  have hwidth : v.toNat < 2 ^ reg.width s.par := by
    simp only [WriteReg.accepts, Bool.and_eq_true, decide_eq_true_eq] at ha
    exact ha.1
  cases reg
  case engineCfg => exact .respond (.of_quiet (.of_same (by constructor <;> rfl) ⟨rfl, rfl, rfl⟩ ⟨rfl, rfl, rfl⟩))
  case aciaCr k => exact .respond (.setControl k _)
  case aciaTdr k => exact .respond (.writeTdr k _ (hn k rfl))
  case dmaMcr => exact .respond (.of_quiet (.modDma (Dma.countsTo_writeMcr _ _ _)))
  case dmaSct => exact .respond (.of_quiet (.modDma (.single ⟨.inl rfl, .inr (.inr hwidth), .inl rfl⟩)))
  case dmaAddr => exact .respond (.of_quiet (.modDma (.single ⟨.inl rfl, .inl rfl, .inr hwidth⟩)))
  case fddCpb d => exact does_writeCpb d v
  case acsibusByte => exact does_acsiBusWrite _

theorem runs_readRegister (reg : ReadReg) {now : Clock} (hi : instrTime i = some now) :
    Runs i s (readRegister reg now s) := .timed hi (does_readRule reg)

theorem runs_writeRegister (reg : WriteReg) (v : BitVec 32) {now : Clock} (hi : instrTime i = some now)
    (hn : ∀ (s : State) k, reg = .aciaTdr k → (s.acia[k]).byteCycles s.par ∈ chipDelays i s) :
    Runs i s (writeRegister reg v now s) := by
  unfold writeRegister
  split
  · exact .timed hi (does_writeRule reg v ‹_› (hn _))
  · exact .of_does .refused

theorem does_noRegister (unit : BitVec 8) : Does i s (noRegister unit s) := by
  unfold noRegister
  split <;> exact .refused

end

/-- The unit and the index of the transmit holding registers (30_encoding.md R112). -/
theorem writeRegAt_aciaTdr {unit : BitVec 8} {reg : BitVec 16} {k : Fin 2} (h : writeRegAt unit reg = some (.aciaTdr k)) :
    reg = 1 ∧ (unit = 1 ∧ k = 0 ∨ unit = 2 ∧ k = 1) := by
  unfold writeRegAt at h
  split at h <;> simp only [Option.some.injEq, WriteReg.aciaTdr.injEq, reduceCtorEq] at h
  · rename_i hu hr
    exact ⟨BitVec.eq_of_toNat_eq hr, .inl ⟨BitVec.eq_of_toNat_eq hu, h.symm⟩⟩
  · rename_i hu hr
    exact ⟨BitVec.eq_of_toNat_eq hr, .inr ⟨BitVec.eq_of_toNat_eq hu, h.symm⟩⟩

theorem runs_execRegRd (unit : BitVec 8) (reg : BitVec 16) (now : Clock) (s : State) :
    Runs (.regRd unit reg now) s (execRegRd unit reg now s) := by
  unfold execRegRd
  split
  · exact runs_readRegister _ rfl
  · exact .of_does (does_noRegister unit)

theorem runs_execRegWr (unit : BitVec 8) (reg : BitVec 16) (v : BitVec 32) (now : Clock) (s : State) :
    Runs (.regWr unit reg v now) s (execRegWr unit reg v now s) := by
  unfold execRegWr
  split
  · rename_i r hr
    refine runs_writeRegister _ _ rfl fun u k hk => ?_
    obtain ⟨rfl, ⟨rfl, rfl⟩ | ⟨rfl, rfl⟩⟩ := writeRegAt_aciaTdr (hk ▸ hr) <;>
      simp [chipDelays_regWr]
  · exact .of_does (does_noRegister unit)

/-! ### The engine's commands -/

theorem runs_execAdvance (now : Clock) (s : State) : Runs (.advance now) s (execAdvance now s) := by
  unfold execAdvance
  split
  · exact .timed rfl (.next .startLoop)
  · exact .of_does .refused

theorem does_execSchedule (cb : BitVec 8) (param : Param) (delay : Clock) (s : State) :
    Does (.schedule cb param delay) s (execSchedule cb param delay s) := by
  refine .external fun c hcb hc h4 => .respond ((Effect.refl _ s).schedule c delay param h4 fun _ => ?_)
  have hid : cb = BitVec.ofNat 8 c.val := by rw [← hcb, BitVec.ofNat_toNat, BitVec.setWidth_eq]
  exact ⟨.inl ⟨delay, by rw [hid], rfl⟩, hc, fun hl _ => hl.param cb param delay rfl⟩

theorem does_execFireAck {i : Instr} (cb : BitVec 8) (s : State) : Does i s (execFireAck cb s) :=
  .external fun _ _ _ _ => by
    split
    · exact .refused
    · exact .next (.of_quiet (.of_same (by constructor <;> rfl) ⟨rfl, rfl, rfl⟩ ⟨rfl, rfl, rfl⟩))

theorem does_execAgQuery {i : Instr} (cb : BitVec 8) (s : State) : Does i s (execAgQuery cb s) :=
  .select fun _ _ _ => by split <;> exact .respond (.refl i s)

theorem does_execCbExt (n : CbId) (s : State) : Does (.cbExt n) s (execCbExt n s) := by
  refine .dispatchEntry fun e he => .respond ((Effect.handOver he (fun hl => ?_) _).quiet (.emit _ _))
  have hid : (extId s.par n).val = (s.par.ncbInt + n.val) % 256 := rfl
  have hn := hl.host n rfl
  obtain ⟨h9, _, h256⟩ := hl.ok.identities
  omega

/-! ### The buffers' commands -/

/-- A rewind does not look at the flag. -/
theorem rewind_moves (p : Params) (c : CircBuf) :
    CircBuf.Moves p c { ({ c with mx := true } : CircBuf).rewind with mx := false } := by
  have e : ({ ({ c with mx := true } : CircBuf).rewind with mx := false } : CircBuf) = { c.rewind with mx := false } := by
    unfold CircBuf.rewind
    split <;> simp_all
  exact e ▸ .rewind

theorem does_execCbCreate {i : Instr} (buf : BitVec 8) (size : BitVec 32) (s : State) :
    Does i s (execCbCreate buf size s) :=
  .select fun b hb _ => by
    split
    · exact .refused
    · exact .critical hb (.create size.toNat (by omega) (by omega))

theorem length_burstBytesFrom (burst : BitVec 96) (j n : Nat) : (burstBytesFrom burst j n).length = n := by
  induction n generalizing j with
  | zero => rfl
  | succ n ih => simp [burstBytesFrom, ih]

theorem does_execCbAddbytes {i : Instr} (buf : BitVec 8) (len : BitVec 16) (burst : BitVec 96) (s : State) :
    Does i s (execCbAddbytes buf len burst s) :=
  .select fun b hb _ => by
    split
    · exact .refused
    · refine .critical hb (unlessInert_moves fun _ => ?_)
      split
      · exact .same
      · exact .addBytes _ (by rw [burstBytes, length_burstBytesFrom]; exact Nat.lt_of_not_le ‹_›)

theorem does_execCbReadbyte {i : Instr} (buf : BitVec 8) (s : State) : Does i s (execCbReadbyte buf s) :=
  .onBuffer fun _ _ => by split <;> exact .same

theorem does_execCbNextbyte {i : Instr} (buf : BitVec 8) (s : State) : Does i s (execCbNextbyte buf s) :=
  .onBuffer fun _ hc => by
    split
    · exact .same
    · exact .next hc ‹_›

theorem does_execCbArebytes {i : Instr} (buf : BitVec 8) (s : State) : Does i s (execCbArebytes buf s) :=
  .onBuffer fun _ _ => by split <;> exact .same

/-! ### The chips' commands -/

theorem runs_execAciaRxbyte (inst : BitVec 8) (byte : Byte) (now : Clock) (s : State) :
    Runs (.aciaRxbyte inst byte now) s (execAciaRxbyte inst byte now s) :=
  .select fun k hk => .timed rfl <| by
    split
    · exact .refused
    · exact .respond (.receiveByte k byte (by simp [chipDelays_aciaRxbyte, hk]))

theorem does_execFddMount {i : Instr} (slot : BitVec 8) (h : Handle) (ss ghost : Bool) (s : State) :
    Does i s (execFddMount slot h ss ghost s) :=
  .select fun d _ _ => by
    split
    · exact .refused
    · exact .respond (.of_quiet (.modFdd s d (g := Fdd.mount h ss ghost d) fun _ => rfl))

theorem does_execFddUnmount {i : Instr} (slot : BitVec 8) (s : State) : Does i s (execFddUnmount slot s) :=
  .select fun d _ _ => by
    split
    · exact .refused
    · exact .respond (.of_quiet (.modFdd s d (g := Fdd.unmount) fun _ => rfl))

theorem runs_execFddMotor (drive : BitVec 8) (on : Bool) (now : Clock) (s : State) :
    Runs (.fddMotor drive on now) s (execFddMotor drive on now s) :=
  .select fun d hd => .timed rfl <| by
    dsimp only
    split
    · exact .respond (.refl _ _)
    · split
      · exact .respond (.motorOn d (by simp [chipDelays_fddMotor, hd]))
      · split
        · exact .refused
        · exact .respond (.motorOff d)

theorem runs_execFddStep (drive : BitVec 8) (dir : Bool) (now : Clock) (s : State) :
    Runs (.fddStep drive dir now) s (execFddStep drive dir now s) :=
  .select fun d _ => .timed rfl <| by
    dsimp only
    split
    · exact .refused
    · exact .respond (.stepHead d dir)

/-- FDD_READ and FDD_WRITE are refused, or go on with the sector under the head, which the oracle was asked for. -/
theorem does_atSector {i : Instr} {s : State} (d : Fin 2) (side : Bool) {body : Handle → Sector → Nat → State → Result}
    (h : ∀ hd n size u, sectorUnderHead d side s.now s = some (n, size) → Quiet s u → u.fdd = s.fdd →
      Does i s (body hd n size u)) : Does i s (atSector d side s body) := by
  unfold atSector
  dsimp only
  split
  · exact .raise (.of_quiet (.setCond _ _ _))
  · rename_i hd hdisk
    split
    · exact .refused
    · split
      · exact .refused
      · split
        · exact .raise (.of_quiet (.setCond _ _ _))
        · split
          · exact .raise (.of_quiet (.trans (.emit s _) (.setCond _ _ _)))
          · rename_i hsector
            refine h _ _ _ _ ?_ (.emit s _) rfl
            rw [sectorUnderHead, hdisk]
            exact hsector

/-- The time of the sector under the head is a delay of the two transfers. -/
theorem sector_mem_chipDelays {drive : BitVec 8} {side : Bool} {now : Clock} {s : State} {d : Fin 2} {n : Sector}
    {size : Nat} (hd : index 2 drive = some d) (hs : sectorUnderHead d side now s = some (n, size)) :
    size * (s.fdd[driveSlot d]).cpb.toNat ∈ chipDelays (.fddRead drive side now) s ∧
      size * (s.fdd[driveSlot d]).cpb.toNat ∈ chipDelays (.fddWrite drive side now) s := by
  simp [chipDelays_fddWrite, chipDelays_fddRead, hd, hs]

/-- A change of a drive that leaves its cycles per byte. -/
theorem modFdd_cpb (s : State) (d : Fin 3) {g : Fdd → Fdd} (h : (g s.fdd[d]).cpb = (s.fdd[d]).cpb) :
    ((s.modFdd d g).fdd[d]).cpb = (s.fdd[d]).cpb := by simpa using h

theorem runs_execFddRead (drive : BitVec 8) (side : Bool) (now : Clock) (s : State) :
    Runs (.fddRead drive side now) s (execFddRead drive side now s) :=
  .select fun d hd => .timed rfl <| does_atSector d side fun h n size u hs hq hfdd => by
    dsimp only
    have fetched := hq.trans (Quiet.fetchSector d h n size u)
    have hfdd : (fetchSector d h n size u).2.fdd = s.fdd := by simpa using hfdd
    split
    · exact .raise (.of_quiet ((fetched.trans (.setCond _ _ _)).trans (.dmaError _)))
    · rename_i data _
      refine .respond (Effect.scheduleTransfer (.of_quiet (fetched.trans (.modFdd _ (driveSlot d) (g := fun f =>
        { f with reading := true, cond := 0, xfSector := n, xfSize := size, xfBuf := data }) fun _ => rfl))) d size ?_
        (sector_mem_chipDelays hd hs).1)
      rw [modFdd_cpb _ _ (by rfl), hfdd]

theorem runs_execFddWrite (drive : BitVec 8) (side : Bool) (now : Clock) (s : State) :
    Runs (.fddWrite drive side now) s (execFddWrite drive side now s) :=
  .select fun d hd => .timed rfl <| does_atSector d side fun _ n size u hs hq hfdd => by
    refine .respond (Effect.scheduleTransfer (.of_quiet (hq.trans (.modFdd _ (driveSlot d) (g := fun f =>
      { f with writing := true, cond := 0, xfSector := n, xfSize := size }) fun _ => rfl))) d size ?_
      (sector_mem_chipDelays hd hs).2)
    rw [modFdd_cpb _ _ (by rfl), hfdd]

theorem does_execFddConv {i : Instr} (fn : BitVec 16) (arg : BitVec 32) (s : State) : Does i s (execFddConv fn arg s) := by
  unfold execFddConv
  split
  · exact .refused
  · split
    · exact .respond (.refl i s)
    · exact .refused

theorem does_execAcsiAttach {i : Instr} (dev : BitVec 8) (h : Handle) (n : BitVec 32) (s : State) :
    Does i s (execAcsiAttach dev h n s) :=
  .select fun k hk _ => by
    split
    · exact .refused
    · exact .respond ((Effect.refl i s).setPresent k _ fun _ => .inr hk)

theorem does_execAcsiDetach {i : Instr} (dev : BitVec 8) (s : State) : Does i s (execAcsiDetach dev s) :=
  .select fun k _ _ => by
    split
    · exact .refused
    · exact .respond ((Effect.refl i s).setPresent k _ fun h => by simp at h)

/-! ### The devices' commands -/

theorem does_execAcsiSeek {i : Instr} (k : Dev) (lba : BitVec 24) (count ctrl : Byte) (s : State) :
    Does i s (execAcsiSeek k lba count ctrl s) := by
  unfold execAcsiSeek
  dsimp only
  refine .acsiAnswer (.of_quiet (.trans (.trans (.acsiBegin k s) ?_) (.acsiFinish _ _)))
  split
  · exact .acsiReport _ _ _ _
  · exact .modAcsi _ k (g := fun a => { a with curLba := lba }) fun _ => rfl

theorem does_execAcsiRequestSense {i : Instr} (k : Dev) (lba : BitVec 24) (count ctrl : Byte) (s : State) :
    Does i s (execAcsiRequestSense k lba count ctrl s) := by
  unfold execAcsiRequestSense
  have begun : Quiet s (acsiBeginSense k s) := .modAcsi s k (g := fun a => { a with status := s.par.acsiStOk }) fun _ => rfl
  have sent := begun.trans (.drqInAll (senseBytes (acsiBeginSense k s).par (acsiBeginSense k s).acsi[k]) _)
  exact .acsiAnswer (.of_quiet ((sent.trans (.modAcsi _ k (g := fun a =>
    { a with error := (drqInAll (senseBytes (acsiBeginSense k s).par (acsiBeginSense k s).acsi[k])
        (acsiBeginSense k s)).par.acsiENone }) fun _ => rfl)).trans (.acsiFinish _ _)))

/-! ### The callbacks -/

theorem does_callback {i : Instr} {s : State} {c : CbId} {f : AgEntry → State → State}
    (h : ∀ e, s.ag[c] = some e → Effect i s (f e (s.cancel c))) :
    Does i s (dispatchEntry c (fun e s => .next (f e s)) s) :=
  .dispatchEntry fun e he => .next (h e he)

theorem does_fddXfer {i : Instr} (d : Fin 2) (s : State) :
    Does i s (dispatchEntry (fddXferId d) (fun _ s => .next (fddXferDone d s)) s) :=
  does_callback (f := fun _ => fddXferDone d) fun _ _ =>
    ((Effect.refl i s).cancel _ fun _ => by simp only [fddXferId]; omega).quiet (.fddXferDone d _)

theorem does_reserved {i : Instr} (c : CbId) (hc : 4 ≤ c.val) (s : State) :
    Does i s (dispatchEntry c (fun _ s => .next s) s) :=
  does_callback (f := fun _ s => s) fun _ _ => (Effect.refl i s).cancel c fun _ => hc

/-- What every instruction but RESET does. -/
theorem exec_runs (i : Instr) (s : State) (hi : i ≠ .reset) : Runs i s (exec i s) := by
  cases i
  case reset => exact absurd rfl hi
  case nop => exact .of_does (.respond (.refl _ s))
  case advance => exact runs_execAdvance _ _
  case schedule => exact .of_does (does_execSchedule _ _ _ _)
  case cancel => exact .of_does (.external fun c _ _ h4 => .respond ((Effect.refl _ s).cancel c h4))
  case fireAck => exact .of_does (does_execFireAck _ _)
  case agQuery => exact .of_does (does_execAgQuery _ _)
  case cbCreate => exact .of_does (does_execCbCreate _ _ _)
  case cbDestroy => exact .of_does (.select fun _ hb _ => .critical hb .destroy)
  case cbReset => exact .of_does (.select fun _ hb _ => .critical hb (rewind_moves _ _))
  case cbAddbyte => exact .of_does (.onBuffer fun _ hc => .addByte _ hc)
  case cbAddbytes => exact .of_does (does_execCbAddbytes _ _ _ _)
  case cbReadbyte => exact .of_does (does_execCbReadbyte _ _)
  case cbNextbyte => exact .of_does (does_execCbNextbyte _ _)
  case cbArebytes => exact .of_does (does_execCbArebytes _ _)
  case cbCount => exact .of_does (.onBuffer fun _ _ => .same)
  case regRd => exact runs_execRegRd _ _ _ _
  case regWr => exact runs_execRegWr _ _ _ _ _
  case aciaRxbyte => exact runs_execAciaRxbyte _ _ _ _
  case fddMount => exact .of_does (does_execFddMount _ _ _ _ _)
  case fddUnmount => exact .of_does (does_execFddUnmount _ _)
  case fddMotor => exact runs_execFddMotor _ _ _ _
  case fddStep => exact runs_execFddStep _ _ _ _
  case fddRead => exact runs_execFddRead _ _ _ _
  case fddWrite => exact runs_execFddWrite _ _ _ _
  case fddConv => exact .of_does (does_execFddConv _ _ _)
  case acsiAttach => exact .of_does (does_execAcsiAttach _ _ _ _)
  case acsiDetach => exact .of_does (does_execAcsiDetach _ _)
  case acsiReady => exact .of_does (.acsiAnswer (.of_quiet (.trans (.acsiBegin _ s) (.acsiFinish _ _))))
  case acsiRequestSense k lba count ctrl => exact .of_does (does_execAcsiRequestSense k lba count ctrl s)
  case acsiFormat =>
    exact .of_does (.acsiAnswer (.of_quiet (.trans (.trans (.acsiBegin _ s) (.formatSectors _ _ _ _)) (.acsiFinish _ _))))
  case acsiRead k lba count ctrl =>
    exact .of_does (.acsiAnswer (.startTransfer (.acsiBegin k s) k _ lba count (List.mem_singleton.2 rfl)
      fun hl => hl.device _ _ _ _ (.inl rfl)))
  case acsiWrite k lba count ctrl =>
    exact .of_does (.acsiAnswer (.startTransfer (.acsiBegin k s) k _ lba count (List.mem_singleton.2 rfl)
      fun hl => hl.device _ _ _ _ (.inr rfl)))
  case acsiSeek k lba count ctrl => exact .of_does (does_execAcsiSeek k lba count ctrl s)
  case acsiInquiry =>
    exact .of_does (.acsiAnswer (.of_quiet (.trans (.trans (.acsiBegin _ s) (.drqInAll _ _)) (.acsiFinish _ _))))
  case acsiModeSelect =>
    exact .of_does (.acsiAnswer (.of_quiet (.trans (.trans (.acsiBegin _ s) (.drqOutAll _ _)) (.acsiFinish _ _))))
  case acsiInvalid => exact .of_does (.acsiAnswer (.of_quiet (.trans (.acsiReport _ _ _ s) (.acsiFinish _ _))))
  case cbAcia0Tx => exact .of_does (does_callback fun _ _ => .txDone 0 (List.mem_singleton.2 rfl))
  case cbAcia0Rx => exact .of_does (does_callback fun _ _ => .rxDone 0)
  case cbAcia1Tx => exact .of_does (does_callback fun _ _ => .txDone 1 (List.mem_singleton.2 rfl))
  case cbAcia1Rx => exact .of_does (does_callback fun _ _ => .rxDone 1)
  case cbFdd0Index => exact .of_does (does_callback fun _ he => .indexPulse 0 rfl he (List.mem_singleton.2 rfl))
  case cbFdd1Index => exact .of_does (does_callback fun _ he => .indexPulse 1 rfl he (List.mem_singleton.2 rfl))
  case cbFdd0Xfer => exact .of_does (does_fddXfer 0 s)
  case cbFdd1Xfer => exact .of_does (does_fddXfer 1 s)
  case cbAcsiBlock => exact .of_does (does_callback fun _ he => .blockDone rfl he (List.mem_singleton.2 rfl))
  case cbReserved9 => exact .of_does (does_reserved 9 (by decide) s)
  case cbReserved10 n => exact .of_does (does_reserved _ (by simp; omega) s)
  case cbReserved12 n => exact .of_does (does_reserved _ (by simp; omega) s)
  case cbExt => exact .of_does (does_execCbExt _ _)
  case regWrAcia0Tdr =>
    exact runs_writeRegister _ _ rfl fun _ k hk => by cases hk; exact List.mem_singleton.2 rfl
  case regWrAcia1Tdr =>
    exact runs_writeRegister _ _ rfl fun _ k hk => by cases hk; exact List.mem_singleton.2 rfl
  case regWrEngineCfg | regWrAcia0Cr | regWrAcia1Cr | regWrDmaMcr | regWrDmaSct | regWrDmaAddr | regWrFddCpb |
      regWrAcsibusByte =>
    exact runs_writeRegister _ _ rfl fun _ _ hk => by cases hk
  all_goals exact runs_readRegister _ rfl

end Sys2Proof.Machine
end

section
namespace Sys2Proof.Machine

/-! ### The buffers' form -/

/-- A remainder of a number below twice the divisor. -/
theorem mod_of_lt_two_mul {x n : Nat} (h : x < 2 * n) : x % n = if x < n then x else x - n := by
  split
  · exact Nat.mod_eq_of_lt ‹_›
  · rw [Nat.mod_eq_sub_mod (by omega), Nat.mod_eq_of_lt (by omega)]

namespace CircBuf

/-- The number of unread bytes, without the wrap (10_state.md R31(b)). -/
theorem count_eq {c : CircBuf} (hc : c.Ok) (h : c.cap ≠ 0) :
    c.count = if c.rd < c.wr then c.wr - 1 - c.rd else c.wr + c.cap - 1 - c.rd := by
  obtain ⟨h2, hrd, hwr⟩ := hc.live h
  rw [count, mod_of_lt_two_mul (by omega)]
  split <;> split <;> omega

theorem count_lt {c : CircBuf} (h : c.cap ≠ 0) : c.count < c.cap := Nat.mod_lt _ (Nat.pos_of_ne_zero h)

/-- The slot `k` places before the write cursor. -/
def back (c : CircBuf) (k : Nat) : Nat := (c.wr + c.cap - k) % c.cap

/-- The unread slots are the `count` slots before the write cursor. -/
theorem written_iff {c : CircBuf} (hc : c.Ok) (h : c.cap ≠ 0) :
    c.Written ↔ ∀ k, 0 < k → k ≤ c.count → (c.store.getD (c.back k) none).isSome = true := by
  obtain ⟨h2, hrd, hwr⟩ := hc.live h
  have hcount := count_eq hc h
  have hslot : ∀ j, j < c.count → (c.rd + 1 + j) % c.cap = c.back (c.count - j) := fun j hj => by
    rw [back]
    split at hcount
    · rw [mod_of_lt_two_mul (by omega), mod_of_lt_two_mul (by omega)]
      split <;> split <;> omega
    · congr 1
      omega
  simp only [Written, content, List.all_map, List.all_eq_true, List.mem_range, Function.comp_apply]
  constructor
  · intro hw k h0 hk
    have := hw (c.count - k) (by omega)
    rwa [hslot _ (by omega), Nat.sub_sub_self hk] at this
  · intro hw j hj
    rw [hslot j hj]
    exact hw _ (by omega) (by omega)

/-- A buffer with nothing unread. -/
theorem written_of_count {c : CircBuf} (h : c.count = 0) : c.Written := by
  simp [Written, content, h]

/-! #### A burst into the store -/

theorem isSome_getD_set {store : List (Option Byte)} {x : Nat} (slot : Nat) (b : Byte)
    (h : (store.getD x none).isSome = true) : ((store.set slot (some b)).getD x none).isSome = true := by
  by_cases hx : slot = x
  · subst hx
    have hlt : slot < store.length := by
      by_contra hge
      simp [List.getElem?_eq_none (Nat.le_of_not_lt hge)] at h
    simp [hlt]
  · simpa [List.getElem?_set, hx] using h

/-- A burst leaves what is written written. -/
theorem isSome_burstInto (cap : Nat) (store : List (Option Byte)) (slot : Nat) (bytes : List Byte) {x : Nat}
    (h : (store.getD x none).isSome = true) : ((burstInto cap store slot bytes).getD x none).isSome = true := by
  induction bytes generalizing store slot with
  | nil => exact h
  | cons b bytes ih => exact ih _ _ (isSome_getD_set _ b h)

theorem length_burstInto (cap : Nat) (store : List (Option Byte)) (slot : Nat) (bytes : List Byte) :
    (burstInto cap store slot bytes).length = store.length := by
  induction bytes generalizing store slot with
  | nil => rfl
  | cons b bytes ih => rw [burstInto, ih, List.length_set]

/-- A burst writes the slots it goes over. -/
theorem isSome_burstInto_slot {cap : Nat} (hcap : cap ≠ 0) (store : List (Option Byte)) (hlen : store.length = cap)
    (slot : Nat) (bytes : List Byte) {j : Nat} (hj : j < bytes.length) :
    ((burstInto cap store slot bytes).getD ((slot + j) % cap) none).isSome = true := by
  induction bytes generalizing store slot j with
  | nil => cases hj
  | cons b bytes ih =>
    cases j with
    | zero =>
      have hlt : slot % cap < store.length := by
        rw [hlen]
        exact Nat.mod_lt _ (Nat.pos_of_ne_zero hcap)
      have hput : ((store.set (slot % cap) (some b)).getD (slot % cap) none).isSome = true := by simp [hlt]
      exact isSome_burstInto cap _ (slot + 1) bytes hput
    | succ j =>
      have := ih (store.set (slot % cap) (some b)) (by rw [List.length_set, hlen]) (slot + 1) (Nat.lt_of_succ_lt_succ hj)
      rwa [Nat.add_assoc, Nat.add_comm 1 j] at this

/-! #### The commands -/

theorem addBytes_ok {c : CircBuf} (hc : c.Ok) (h : c.cap ≠ 0) (bytes : List Byte) : (c.addBytes bytes).Ok where
  free := hc.free
  length := (length_burstInto _ _ _ _).trans hc.length
  inert h0 := absurd h0 h
  live _ := by
    obtain ⟨h2, hrd, _⟩ := hc.live h
    have hwr : (c.wr + bytes.length) % c.cap < c.cap := Nat.mod_lt _ (Nat.pos_of_ne_zero h)
    refine ⟨h2, ?_, hwr⟩
    dsimp only [addBytes]
    split
    · exact hwr
    · exact hrd

/-- A burst adds at most its length to what is unread. -/
theorem count_addBytes_le {c : CircBuf} (hc : c.Ok) {bytes : List Byte} (hlen : bytes.length < c.cap) :
    (c.addBytes bytes).count ≤ c.count + bytes.length := by
  have h : c.cap ≠ 0 := by omega
  obtain ⟨h2, hrd, hwr⟩ := hc.live h
  have hcount := count_eq hc h
  have hcount' := count_eq (addBytes_ok hc h bytes) h
  have hwr' : (c.addBytes bytes).wr = if c.wr + bytes.length < c.cap then c.wr + bytes.length
      else c.wr + bytes.length - c.cap := mod_of_lt_two_mul (by omega)
  have hrd' : (c.addBytes bytes).rd =
      if bytes.length > c.cap - 1 - c.count then (c.addBytes bytes).wr else c.rd := rfl
  have hcap' : (c.addBytes bytes).cap = c.cap := rfl
  rw [hcount', hcap', hrd']
  split at hcount <;> split at hwr' <;> split <;> split <;> omega

theorem addBytes_written {c : CircBuf} (hc : c.Ok) (hw : c.Written) {bytes : List Byte} (hlen : bytes.length < c.cap) :
    (c.addBytes bytes).Written := by
  have h : c.cap ≠ 0 := by omega
  obtain ⟨h2, hrd, hwr⟩ := hc.live h
  have hcount := count_addBytes_le hc hlen
  have hlt : (c.addBytes bytes).count < c.cap := count_lt (c := c.addBytes bytes) h
  rw [written_iff (addBytes_ok hc h bytes) h]
  intro k h0 hk
  have hback : (c.addBytes bytes).back k = ((c.wr + bytes.length) % c.cap + c.cap - k) % c.cap := rfl
  by_cases hnew : k ≤ bytes.length
  · have hslot : (c.addBytes bytes).back k = (c.wr + (bytes.length - k)) % c.cap := by
      rw [hback, mod_of_lt_two_mul (x := c.wr + bytes.length) (by omega)]
      split <;> rw [mod_of_lt_two_mul (by omega), mod_of_lt_two_mul (by omega)] <;> split <;> split <;> omega
    rw [hslot]
    exact isSome_burstInto_slot h _ hc.length _ _ (by omega)
  · have hslot : (c.addBytes bytes).back k = c.back (k - bytes.length) := by
      rw [hback, back, mod_of_lt_two_mul (x := c.wr + bytes.length) (by omega)]
      split <;> rw [mod_of_lt_two_mul (by omega), mod_of_lt_two_mul (by omega)] <;> split <;> split <;> omega
    rw [hslot]
    exact isSome_burstInto _ _ _ _ ((written_iff hc h).1 hw _ (by omega) (by omega))

/-- One byte is a burst of one. -/
theorem addByte_eq_addBytes {c : CircBuf} (hc : c.Ok) (h : c.cap ≠ 0) (b : Byte) : c.addByte b = c.addBytes [b] := by
  obtain ⟨h2, hrd, hwr⟩ := hc.live h
  have hcount := count_eq hc h
  have hfull : c.wr = c.rd ↔ [b].length > c.cap - 1 - c.count := by
    rw [List.length_singleton]
    split at hcount <;> omega
  simp only [addByte, addBytes, burstInto, Nat.mod_eq_of_lt hwr, hfull, List.length_singleton]

theorem next_ok {c : CircBuf} (hc : c.Ok) (h : c.cap ≠ 0) : ({ c with rd := c.next } : CircBuf).Ok where
  free := hc.free
  length := hc.length
  inert h0 := absurd h0 h
  live _ := ⟨(hc.live h).1, Nat.mod_lt _ (Nat.pos_of_ne_zero h), (hc.live h).2.2⟩

/-- Moving the read cursor over a byte leaves what is unread among what was. -/
theorem next_written {c : CircBuf} (hc : c.Ok) (hw : c.Written) (h : c.cap ≠ 0) (hne : c.next ≠ c.wr) :
    ({ c with rd := c.next } : CircBuf).Written := by
  obtain ⟨h2, hrd, hwr⟩ := hc.live h
  have hcount := count_eq hc h
  have hcount' : ({ c with rd := c.next } : CircBuf).count =
      if c.next < c.wr then c.wr - 1 - c.next else c.wr + c.cap - 1 - c.next := count_eq (next_ok hc h) h
  have hnext : c.next = if c.rd + 1 < c.cap then c.rd + 1 else c.rd + 1 - c.cap := mod_of_lt_two_mul (by omega)
  rw [written_iff (next_ok hc h) h]
  intro k h0 hk
  refine (written_iff hc h).1 hw k h0 (hk.trans ?_)
  rw [hcount', hcount]
  split at hnext <;> split <;> split <;> omega

theorem ok_flag {c : CircBuf} (hc : c.Ok) : ({ c with mx := false } : CircBuf).Ok :=
  ⟨rfl, hc.length, hc.inert, hc.live⟩

theorem create_ok {size : Nat} (h : 2 ≤ size) : ({ create size with mx := false } : CircBuf).Ok where
  free := rfl
  length := List.length_replicate
  inert h0 := by simp only [create] at h0; omega
  live _ := ⟨h, by simp only [create]; omega, by simp only [create]; omega⟩

theorem destroy_ok (c : CircBuf) : ({ c.destroy with mx := false } : CircBuf).Ok where
  free := rfl
  length := rfl
  inert _ := ⟨rfl, rfl⟩
  live h := absurd rfl h

theorem rewind_of_inert {c : CircBuf} (h : c.cap = 0) : c.rewind = c := if_pos h

theorem rewind_of_live {c : CircBuf} (h : c.cap ≠ 0) : c.rewind = { c with rd := 0, wr := 1 } := if_neg h

theorem rewind_cap (c : CircBuf) : c.rewind.cap = c.cap := by
  unfold rewind
  split <;> rfl

/-- Cursors at 0 and 1 leave nothing unread. -/
theorem count_of_rewound {c : CircBuf} (hrd : c.rd = 0) (hwr : c.wr = 1) : c.count = 0 := by
  rw [count, hrd, hwr]
  simp

theorem rewind_ok {c : CircBuf} (hc : c.Ok) : ({ c.rewind with mx := false } : CircBuf).Ok := by
  by_cases h : c.cap = 0
  · rw [rewind_of_inert h]
    exact ok_flag hc
  · rw [rewind_of_live h]
    obtain ⟨h2, _⟩ := hc.live h
    exact ⟨rfl, hc.length, fun h0 => absurd h0 h, fun _ => ⟨h2, by simp only; omega, by simp only; omega⟩⟩

/-- Every command on a buffer keeps its form. -/
theorem Moves.ok {p : Params} {c c' : CircBuf} (hm : Moves p c c') (hc : c.Ok) (hcap : c.cap ≤ p.cbMaxcap) :
    c'.Ok ∧ c'.cap ≤ p.cbMaxcap := by
  cases hm with
  | same => exact ⟨ok_flag hc, hcap⟩
  | create size h2 hmax => exact ⟨create_ok h2, hmax⟩
  | destroy => exact ⟨destroy_ok c, Nat.zero_le _⟩
  | rewind => exact ⟨rewind_ok hc, (rewind_cap c).symm ▸ hcap⟩
  | addByte b h => exact ⟨addByte_eq_addBytes hc h b ▸ ok_flag (addBytes_ok hc h [b]), hcap⟩
  | addBytes bytes hlen => exact ⟨ok_flag (addBytes_ok hc (by omega) bytes), hcap⟩
  | next h _ => exact ⟨ok_flag (next_ok hc h), hcap⟩

/-- Every command on a buffer keeps its unread slots written. -/
theorem Moves.written {p : Params} {c c' : CircBuf} (hm : Moves p c c') (hc : c.Ok) (hw : c.Written) : c'.Written := by
  cases hm with
  | same => exact hw
  | create size _ _ => exact written_of_count (count_of_rewound rfl rfl)
  | destroy => exact written_of_count rfl
  | rewind =>
    by_cases h : c.cap = 0
    · rw [rewind_of_inert h]
      exact hw
    · rw [rewind_of_live h]
      exact written_of_count (count_of_rewound rfl rfl)
  | addByte b h =>
    obtain ⟨h2, _⟩ := hc.live h
    exact addByte_eq_addBytes hc h b ▸ addBytes_written hc hw (bytes := [b]) (by simp only [List.length_singleton]; omega)
  | addBytes bytes hlen => exact addBytes_written hc hw hlen
  | next h hne => exact next_written hc hw h hne

end CircBuf
end Sys2Proof.Machine
end

section
namespace Sys2Proof.Machine

/-! ### What is fetched is legal -/

/-- The instructions whose operands take no check but that of a time. -/
def unchecked : Instr → Bool
  | .schedule _ _ _ | .cbExt _ | .acsiRead _ _ _ _ | .acsiWrite _ _ _ _ => false
  | _ => true

section
variable {i : Instr} {s : State}

theorem Legal.of_unchecked (hp : s.par.Ok) (hi : unchecked i = true)
    (ht : ∀ now, instrTime i = some now → now.toNat < 2 ^ s.par.cw) : Legal i s where
  ok := hp
  time := ht
  param := by rintro _ _ _ rfl; cases hi
  host := by rintro _ rfl; cases hi
  device := by rintro _ _ _ _ (rfl | rfl) <;> cases hi

theorem Legal.of_untimed (hp : s.par.Ok) (hi : unchecked i = true) (ht : instrTime i = none) : Legal i s :=
  .of_unchecked hp hi fun now h => by rw [ht] at h; cases h

theorem Legal.of_time (hp : s.par.Ok) (hi : unchecked i = true) {now : Clock} (ht : instrTime i = some now)
    (hn : now.toNat < 2 ^ s.par.cw) : Legal i s :=
  .of_unchecked hp hi fun now' h => by
    rw [ht] at h
    cases h
    exact hn

/-- What an instruction is checked for does not depend on the clock. -/
theorem Legal.at_time (h : Legal i s) (now : Clock) : Legal i { s with now := now } :=
  ⟨h.ok, h.time, h.param, h.host, h.device⟩

/-! #### Commands -/

theorem readInstr_unchecked (r : ReadReg) (now : Clock) :
    unchecked (readInstr r now) = true ∧ instrTime (readInstr r now) = some now := by
  unfold readInstr
  split <;> (try split) <;> (try split) <;> exact ⟨rfl, rfl⟩

theorem writeInstr_unchecked (r : WriteReg) (v : BitVec 32) (now : Clock) :
    unchecked (writeInstr r v now) = true ∧ instrTime (writeInstr r v now) = some now := by
  unfold writeInstr
  split <;> (try split) <;> exact ⟨rfl, rfl⟩

theorem decodeRegRd_unchecked (p : Params) (unit : BitVec 8) (reg : BitVec 16) (now : Clock) :
    unchecked (decodeRegRd p unit reg now) = true ∧ instrTime (decodeRegRd p unit reg now) = some now := by
  unfold decodeRegRd
  split
  · exact readInstr_unchecked _ _
  · exact ⟨rfl, rfl⟩

theorem decodeRegWr_unchecked {p : Params} {unit : BitVec 8} {reg : BitVec 16} {v : BitVec 32} {now : Clock}
    (h : decodeRegWr p unit reg v now = .ok i) : unchecked i = true ∧ instrTime i = some now := by
  unfold decodeRegWr at h
  split at h
  · obtain ⟨_, rfl⟩ := (ifClear_ok _ _ _).1 h
    exact writeInstr_unchecked _ _ _
  · cases h
    exact ⟨rfl, rfl⟩

/-- A word that passes an operation's checks and carries no time. -/
theorem ifClear_untimed {b : Bool} {j : Instr} (hp : s.par.Ok) (h : ifClear b j = .ok i) (hj : unchecked j = true)
    (ht : instrTime j = none) : Legal i s := by
  obtain ⟨_, rfl⟩ := (ifClear_ok _ _ _).1 h
  exact .of_untimed hp hj ht

/-- A word that passes an operation's checks, that of its time among them. -/
theorem ifClear_timed {b : Bool} {j : Instr} {time : Clock} (hp : s.par.Ok)
    (h : ifClear (b && nowFits s.par time) j = .ok i) (hj : unchecked j = true ∧ instrTime j = some time) : Legal i s := by
  obtain ⟨hb, rfl⟩ := (ifClear_ok _ _ _).1 h
  exact .of_time hp hj.1 hj.2 ((nowFits_iff _ _).1 (Bool.and_eq_true_iff.1 hb).2)

theorem build_legal {op : Op} {c : Cmd} (hp : s.par.Ok) (h : build s.par op c = .ok i) : Legal i s := by
  cases op
  case schedule =>
    obtain ⟨hb, rfl⟩ := (ifClear_ok _ _ _).1 h
    have hparam : c.param.toNat < 2 ^ s.par.pw :=
      (paramFits_iff _ _).1 (Bool.and_eq_true_iff.1 (Bool.and_eq_true_iff.1 hb).1).2
    exact ⟨hp, nofun, fun _ _ _ e => by cases e; exact hparam, nofun, nofun⟩
  case regRd => exact ifClear_timed hp h (decodeRegRd_unchecked _ _ _ _)
  case regWr =>
    simp only [build] at h
    split at h
    · obtain ⟨hi, ht⟩ := decodeRegWr_unchecked h
      exact .of_time hp hi ht ((nowFits_iff _ _).1 ‹_›)
    · cases h
  case advance | aciaRxbyte | fddMotor | fddStep | fddRead | fddWrite => exact ifClear_timed hp h ⟨rfl, rfl⟩
  all_goals exact ifClear_untimed hp h rfl rfl

theorem decode_legal {port : Port} {w : Word128} (hp : s.par.Ok) (h : decode s.par port w = .ok i) : Legal i s := by
  unfold decode decodeCmd at h
  split at h
  · cases h
  · split at h
    · cases h
    · exact build_legal hp h

/-! #### Callbacks and command blocks -/

theorem reservedOf_unchecked (c : CbId) : unchecked (reservedOf c) = true ∧ instrTime (reservedOf c) = none := by
  unfold reservedOf
  split <;> exact ⟨rfl, rfl⟩

theorem callbackOf_legal {c : CbId} (hp : s.par.Ok) (hc : c.val < s.par.ncb) : Legal (callbackOf s.par c) s := by
  unfold callbackOf
  split
  case h_10 =>
    split
    · exact .of_untimed hp (reservedOf_unchecked c).1 (reservedOf_unchecked c).2
    · have hext : s.par.ncbInt + (Fin.ofNat 256 (c.val - s.par.ncbInt)).val < s.par.ncb := by
        have := Nat.mod_le (c.val - s.par.ncbInt) 256
        simp only [Fin.val_ofNat]
        omega
      exact ⟨hp, nofun, nofun, fun _ e => by cases e; exact hext, nofun⟩
  all_goals exact .of_untimed hp rfl rfl

/-- Dropping the low part of two words put together leaves the high part. -/
theorem append_toNat_shiftRight {n m : Nat} (x : BitVec n) (y : BitVec m) : (x ++ y).toNat >>> m = x.toNat := by
  rw [BitVec.toNat_append, Nat.shiftRight_or_distrib, Nat.shiftLeft_shiftRight,
    Nat.shiftRight_eq_div_pow, Nat.div_eq_of_lt y.isLt, Nat.or_zero]

/-- A command block names the device it was taken from. -/
theorem acsiBlock_device (k : Dev) (cmd : Vector Byte 6) : ((acsiBlock k cmd).extractLsb' 45 3).toFin = k := by
  have high : (acsiBlock k cmd).toNat >>> (8 + (8 + (8 + (8 + (8 + 5))))) = (BitVec.ofNat 3 k.val).toNat := by
    simp only [acsiBlock, BitVec.toNat_cast, Nat.shiftRight_add, append_toNat_shiftRight]
  have hk : k.val < 2 ^ 3 := k.isLt
  apply Fin.ext
  calc ((acsiBlock k cmd).extractLsb' 45 3).toNat = (acsiBlock k cmd).toNat >>> 45 % 2 ^ 3 := BitVec.extractLsb'_toNat ..
    _ = k.val % 2 ^ 3 % 2 ^ 3 := congrArg (· % 2 ^ 3) high
    _ = k.val := by rw [Nat.mod_mod, Nat.mod_eq_of_lt hk]

theorem decodeAcsi_legal {w : BitVec 48} (hp : s.par.Ok) (hw : s.acsiPending = some (w.extractLsb' 45 3).toFin) :
    Legal (decodeAcsi w) s := by
  unfold decodeAcsi
  dsimp only
  split
  case h_4 => exact ⟨hp, nofun, nofun, nofun, fun _ _ _ _ e => by rcases e with e | e <;> cases e; exact hw⟩
  case h_5 => exact ⟨hp, nofun, nofun, nofun, fun _ _ _ _ e => by rcases e with e | e <;> cases e; exact hw⟩
  all_goals exact .of_untimed hp rfl rfl

/-! ### Fetching -/

theorem chooseDue_mem {s' : State} {c : CbId} (h : chooseDue s = some (c, s')) : c ∈ candidates s := by
  unfold chooseDue at h
  split at h
  · cases h
  · rename_i hc
    cases h
    rw [hc]
    exact List.mem_singleton.2 rfl
  · rename_i rest hc
    cases h
    rw [hc]
    have hlt : Config.tiePick s.picks.taken % (rest.length + 2) < rest.length + 2 := Nat.mod_lt _ (Nat.succ_pos _)
    rw [List.getD_eq_getElem _ _ hlt]
    exact List.getElem_mem _

/-- The dispatcher fires an identity below `NCB`. -/
theorem chooseDue_lt_ncb {s' : State} {c : CbId} (h : chooseDue s = some (c, s')) : c.val < s.par.ncb := by
  have hmem : c ∈ (List.finRange 256).take s.par.ncb :=
    (List.mem_filter.1 (List.mem_filter.1 (chooseDue_mem h)).1).1
  obtain ⟨n, hn, rfl⟩ := List.mem_take_iff_getElem.1 hmem
  simp only [List.getElem_finRange, Fin.val_cast]
  omega

/-- What is fetched follows from a state: the state that is left or run in differs from it in nothing that the forms speak
of, and the instruction is legal there. -/
def Work.Follows (s : State) : Work → Prop
  | .idle => True
  | .reply t => Quiet s t
  | .run i u => Quiet s u ∧ (s.par.Ok → Legal i u)

theorem Work.Follows.after {u : State} {w : Work} (q : Quiet s u) (h : w.Follows u) : w.Follows s := by
  cases w with
  | idle => trivial
  | reply t => exact q.trans h
  | run i t => exact ⟨q.trans h.1, fun hp => h.2 (q.base.par ▸ hp)⟩

theorem fetchCommand_follows (p : Port) (w : Word128) (s : State) : (fetchCommand p w s).Follows s := by
  unfold fetchCommand
  split
  · exact ⟨.refl s, fun hp => decode_legal hp ‹_›⟩
  · exact .refuse _ s

theorem fetchCallback_follows (s : State) : (fetchCallback s).Follows s := by
  unfold fetchCallback
  split
  · rename_i c u h
    have hc := chooseDue_lt_ncb h
    obtain ⟨n, rfl⟩ := chooseDue_leaves h
    exact ⟨.of_same (by constructor <;> rfl) ⟨rfl, rfl, rfl⟩ ⟨rfl, rfl, rfl⟩, fun hp => callbackOf_legal hp hc⟩
  · exact .finishDispatch s

theorem quiet_serving (s : State) (p : Port) : Quiet s { s with serving := p } :=
  .of_same (by constructor <;> rfl) ⟨rfl, rfl, rfl⟩ ⟨rfl, rfl, rfl⟩

theorem quiet_picks (s : State) (c : Choices) : Quiet s { s with picks := c } :=
  .of_same (by constructor <;> rfl) ⟨rfl, rfl, rfl⟩ ⟨rfl, rfl, rfl⟩

theorem fetchPort_follows {p : Port} {w : Work} (h : fetchPort p s = some w) : w.Follows s := by
  refine .after (quiet_serving s p) ?_
  cases p with
  | X =>
    obtain ⟨x, _, rfl⟩ := Option.map_eq_some_iff.1 h
    exact fetchCommand_follows _ _ _
  | E =>
    simp only [fetchPort, fetchE] at h
    split at h
    · cases h
      exact fetchCallback_follows _
    · split at h
      · rename_i k hk
        cases h
        exact ⟨.refl _, fun hp => decodeAcsi_legal hp (by rw [acsiBlock_device]; exact hk)⟩
      · obtain ⟨x, _, rfl⟩ := Option.map_eq_some_iff.1 h
        exact fetchCommand_follows _ _ _

theorem fetch_follows (s : State) : (fetch s).Follows s := by
  rcases fetch_cases s with ⟨_, _, h⟩ | ⟨p, w, hw, _, h⟩ | ⟨_, _, h⟩
  · rw [h]
    trivial
  · rw [h]
    exact fetchPort_follows hw
  · rw [h]
    refine .after (quiet_picks s s.picks.contest) ?_
    cases hw : fetchPort (nextTurn s.picks).1 { s with picks := s.picks.contest } with
    | none => trivial
    | some w => exact fetchPort_follows hw

/-! ### One step -/

/-- What one step does: nothing that the forms speak of, a boot, or the effect of a legal instruction in the state it acts
in. -/
theorem step_cases {t : State} (h : step s = .next t) :
    Quiet s t ∨ (∃ u w, Quiet s u ∧ t = (coldBoot u).answer w) ∨
      ∃ i u v, Quiet s u ∧ (s.par.Ok → Legal i u) ∧ Clocked i u v ∧ Effect i v t := by
  have hf := fetch_follows s
  unfold step at h
  split at h
  · cases h
    exact .inl (.refl s)
  · rename_i u hu
    cases h
    exact .inl (by rwa [hu] at hf)
  · rename_i i u hu
    rw [hu] at hf
    obtain ⟨hq, hl⟩ := hf
    by_cases hi : i = .reset
    · subst hi
      cases h
      exact .inr (.inl ⟨u, _, hq, rfl⟩)
    · obtain ⟨v, hv, he⟩ := exec_runs i u hi t h
      exact .inr (.inr ⟨i, u, v, hq, hl, hv, he⟩)

end
end Sys2Proof.Machine
end

section
namespace Sys2Proof.Machine

/-! ### What every step keeps -/

/-- What is kept by every effect of a legal instruction and by setting the clock, and holds after a cold boot. -/
structure Stable (P : State → Prop) : Prop where
  effect : ∀ {i s t}, Legal i s → Effect i s t → P s → P t
  clock : ∀ {s : State} {now : Clock}, now.toNat < 2 ^ s.par.cw → P s → P { s with now := now }
  boot : ∀ {p : Params}, p.Ok → P (.cold p)

theorem Stable.quiet {P : State → Prop} (h : Stable P) {s t : State} (hp : s.par.Ok) (q : Quiet s t) (hs : P s) : P t :=
  h.effect (.of_untimed (i := .nop) hp rfl rfl) (.of_quiet q) hs

/-- Booting leaves what a cold boot does, but for what is outside the PEE. -/
theorem quiet_coldBoot (s : State) : Quiet (.cold s.par) (coldBoot s) := by
  rw [coldBoot_eq]
  exact .of_same (by constructor <;> rfl) ⟨rfl, rfl, rfl⟩ ⟨rfl, rfl, rfl⟩

theorem Stable.step {P : State → Prop} (h : Stable P) {s t : State} (hp : s.par.Ok) (hs : P s)
    (ht : Machine.step s = .next t) : P t := by
  rcases step_cases ht with q | ⟨u, w, q, rfl⟩ | ⟨i, u, v, q, hl, hv, he⟩
  · exact h.quiet hp q hs
  · have hu : u.par.Ok := q.base.par ▸ hp
    exact h.quiet (s := .cold u.par) hu ((quiet_coldBoot u).trans (.answer _ w)) (h.boot hu)
  · have hu : P u := h.quiet hp q hs
    rcases hv with rfl | ⟨now, hnow, _, rfl⟩
    · exact h.effect (hl hp) he hu
    · exact h.effect ((hl hp).at_time now) he (h.clock ((hl hp).time now hnow) hu)

/-- No step changes the parameters (log entry 6). -/
theorem step_par {s t : State} (h : step s = .next t) : t.par = s.par := by
  rcases step_cases h with q | ⟨u, w, q, rfl⟩ | ⟨i, u, v, q, _, hv, he⟩
  · exact q.base.par
  · exact ((quiet_coldBoot u).trans (.answer _ w)).base.par.trans q.base.par
  · rcases hv with rfl | ⟨now, _, _, rfl⟩ <;> exact he.par.trans q.base.par

/-! #### The buffers -/

theorem CircBuf.cold_ok {p : Params} (hp : p.Ok) : (CircBuf.cold p).Ok := by
  obtain ⟨hrd, hwr, hmx⟩ := hp.resetBuffer
  exact ⟨hmx, rfl, fun _ => ⟨hrd, hwr⟩, fun h => absurd rfl h⟩

theorem CircBuf.cold_written {p : Params} (hp : p.Ok) : (CircBuf.cold p).Written := by
  obtain ⟨hrd, hwr, _⟩ := hp.resetBuffer
  refine CircBuf.written_of_count ?_
  simp only [CircBuf.count, CircBuf.cold, hrd, hwr]

theorem stable_buffersOk : Stable BuffersOk where
  effect hl he hs b := by
    obtain ⟨hok, hcap⟩ := hs b
    rw [he.par]
    rcases he.buffers b with e | ⟨_, hm⟩
    · rw [e]
      exact ⟨hok, hcap⟩
    · exact hm.ok hok hcap
  clock _ hs := hs
  boot hp b := by
    rw [State.cold_cb, State.cold_par, Fin.getElem_fin, Vector.getElem_replicate]
    exact ⟨CircBuf.cold_ok hp, Nat.zero_le _⟩

theorem stable_written : Stable fun s => BuffersOk s ∧ ∀ b : BufId, (s.cb[b]).Written where
  effect hl he hs := by
    refine ⟨stable_buffersOk.effect hl he hs.1, fun b => ?_⟩
    rcases he.buffers b with e | ⟨_, hm⟩
    · rw [e]
      exact hs.2 b
    · exact hm.written (hs.1 b).1 (hs.2 b)
  clock _ hs := hs
  boot hp := by
    refine ⟨stable_buffersOk.boot hp, fun b => ?_⟩
    rw [State.cold_cb, Fin.getElem_fin, Vector.getElem_replicate]
    exact CircBuf.cold_written hp

/-! #### The lines of the ACIAs -/

theorem cold_ag_none {p : Params} (hp : p.Ok) (c : CbId) : (State.cold p).ag[c] = none := by
  rw [State.cold_ag, Fin.getElem_fin, Vector.getElem_replicate]
  exact hp.resetIdle.1

theorem stable_linesOk : Stable fun s => ∀ k : Fin 2, LinesOk s k where
  effect hl he hs k := he.lines hl k (hs k)
  clock _ hs k := (hs k).of_same rfl rfl rfl
  boot {p} hp k := by
    have hcold : (State.cold p).acia[k] = Acia.cold p := by
      rw [State.cold_acia, Fin.getElem_fin, Vector.getElem_replicate]
    exact ⟨by rw [hcold, cold_ag_none hp]; rfl, by rw [hcold, cold_ag_none hp]; rfl, by rw [hcold]; nofun⟩

/-! #### The DMA's counters -/

/-- The byte counter is a multiple of 16 below a sector (10_state.md R41). -/
def Dma.HalvesOk (p : Params) (d : Dma) : Prop := d.bct.toNat % 16 = 0 ∧ d.bct.toNat < p.dmaSectorBytes.toNat

theorem dmaOk_iff (s : State) : DmaOk s ↔ s.dma.HalvesOk s.par := ⟨fun h => ⟨h.1, h.2⟩, fun h => ⟨h.1, h.2⟩⟩

theorem Dma.Counts.halvesOk {p : Params} (hp : p.Ok) {d d' : Dma} (h : Dma.Counts p d d') (hd : d.HalvesOk p) :
    d'.HalvesOk p := by
  obtain ⟨hhalf, hbelow⟩ := hd
  have hhalves := hp.halves
  unfold Dma.HalvesOk
  rcases h.bytes with e | e | ⟨hne, e⟩ <;> rw [e]
  · exact ⟨hhalf, hbelow⟩
  · have hzero : (0 : BitVec 10).toNat = 0 := rfl
    omega
  · have hsector := p.dmaSectorBytes.isLt
    have hsum : (d.bct + 16).toNat = d.bct.toNat + 16 := by
      have hlit : (16 : BitVec 10).toNat = 16 := rfl
      rw [BitVec.toNat_add, hlit]
      omega
    have hne' : (d.bct + 16).toNat ≠ p.dmaSectorBytes.toNat := fun e => hne (BitVec.eq_of_toNat_eq e)
    omega

theorem Dma.CountsTo.halvesOk {p : Params} (hp : p.Ok) {d d' : Dma} (h : Dma.CountsTo p d d') (hd : d.HalvesOk p) :
    d'.HalvesOk p := by
  induction h with
  | refl => exact hd
  | tail _ h ih => exact h.halvesOk hp ih

theorem stable_dmaOk : Stable DmaOk where
  effect hl he hs := by
    rw [dmaOk_iff, he.par]
    exact he.dma.halvesOk hl.ok ((dmaOk_iff _).1 hs)
  clock _ hs := ⟨hs.1, hs.2⟩
  boot hp := by
    obtain ⟨_, _, hhalf, hbelow⟩ := hp.resetDma
    exact ⟨hhalf, hbelow⟩

/-! #### The widths -/

/-- The sector counter and the address are within their widths (10_state.md R38). -/
def Dma.Fits (p : Params) (d : Dma) : Prop := d.sct.toNat < 2 ^ p.dmaSctW ∧ d.addr.toNat < 2 ^ p.dmaAddrW

theorem Dma.Counts.fits {p : Params} {d d' : Dma} (h : Dma.Counts p d d') (hd : d.Fits p) : d'.Fits p := by
  obtain ⟨hsct, haddr⟩ := hd
  constructor
  · rcases h.sectors with e | ⟨hne, e⟩ | hlt
    · rwa [e]
    · have hdown : (d.sct - 1).toNat ≤ d.sct.toNat := by
        have hlt := d.sct.isLt
        have hpos : d.sct.toNat ≠ 0 := fun e => hne (BitVec.eq_of_toNat_eq e)
        have hlit : (1 : BitVec 32).toNat = 1 := rfl
        rw [BitVec.toNat_sub, hlit]
        omega
      rw [e]
      exact Nat.lt_of_le_of_lt hdown hsct
    · exact hlt
  · rcases h.address with e | hlt
    · rwa [e]
    · exact hlt

theorem Dma.CountsTo.fits {p : Params} {d d' : Dma} (h : Dma.CountsTo p d d') (hd : d.Fits p) : d'.Fits p := by
  induction h with
  | refl => exact hd
  | tail _ h ih => exact h.fits ih

/-- A command leaves a buffer's capacity, or sets it within `CB_MAXCAP`. -/
theorem CircBuf.Moves.cap {p : Params} {c c' : CircBuf} (h : CircBuf.Moves p c c') :
    c'.cap = c.cap ∨ c'.cap ≤ p.cbMaxcap := by
  cases h with
  | create size _ hmax => exact .inr hmax
  | destroy => exact .inr (Nat.zero_le _)
  | rewind => exact .inl (rewind_cap c)
  | same | addByte | addBytes | next => exact .inl rfl

theorem Fresh.time_lt {i : Instr} {s : State} {c : CbId} {e : AgEntry} (h : Fresh i s c e) :
    e.fireTime.toNat < 2 ^ s.par.cw := by
  rcases h.time with ⟨_, _, e⟩ | ⟨_, _, e⟩ | ⟨_, _, _, _, _, e⟩ <;> rw [e] <;> exact Params.cycles_lt _ _

theorem Effect.widthsOk {i : Instr} {s t : State} (hl : Legal i s) (he : Effect i s t) (hs : WidthsOk s) : WidthsOk t := by
  obtain ⟨hsct, haddr⟩ := he.dma.fits ⟨hs.counter, hs.address⟩
  constructor <;> try rw [he.par]
  case now => exact he.now ▸ hs.now
  case target =>
    rcases he.target with e | e <;> rw [e]
    · exact hs.target
    · exact hs.now
  case fired =>
    rcases he.fired with ⟨ht, hp⟩ | ⟨c, e, hc, ht, hp⟩ <;> rw [ht, hp]
    · exact hs.fired
    · exact (hs.entries c e hc).2
  case entries =>
    intro c e hc
    rcases he.entries hl.ok c e hc with h | h
    · exact hs.entries c e h
    · exact ⟨h.slot, h.time_lt, h.param hl hs⟩
  case buffers =>
    intro b hb
    rcases he.buffers b with e | ⟨hlt, _⟩
    · rw [e]
      exact hs.buffers b hb
    · omega
  case capacities =>
    intro b
    rcases he.buffers b with e | ⟨_, hm⟩
    · rw [e]
      exact hs.capacities b
    · rcases hm.cap with e | hle
      · rw [e]
        exact hs.capacities b
      · exact Nat.lt_of_le_of_lt hle hl.ok.capacity
  case writes =>
    intro k
    rcases he.writes k with e | e <;> rw [e]
    · exact hs.writes k
    · exact hs.now
  case counter => exact hsct
  case address => exact haddr
  case pulses => exact he.times hs
  case steps =>
    intro d time ht
    rcases he.steps d with e | e <;> rw [e] at ht
    · exact hs.steps d time ht
    · cases ht
      exact hs.now
  case devices =>
    intro k hk
    by_contra hpresent
    rcases he.present k (eq_true_of_ne_false hpresent) with h | h
    · rw [hs.devices k hk] at h
      cases h
    · omega
  case owner =>
    rcases he.owner with e | h
    · rw [e]
      exact hs.owner
    · exact h
  case owed =>
    intro k hk
    rcases he.owed with e | e | e <;> rw [e] at hk
    · exact hs.owed k hk
    · cases hk
    · cases hk
      exact hs.owner

theorem cold_widthsOk {p : Params} (hp : p.Ok) : WidthsOk (.cold p) := by
  obtain ⟨hsct, haddr, _⟩ := hp.resetDma
  obtain ⟨hpresent, _, _, _, hdev⟩ := hp.resetAcsi
  have hbuf : ∀ b : BufId, (State.cold p).cb[b] = CircBuf.cold p := fun b => by
    rw [State.cold_cb, Fin.getElem_fin, Vector.getElem_replicate]
  exact {
    now := hp.clockReset
    target := hp.clockReset
    fired := ⟨hp.clockReset, hp.resetDispatcher⟩
    entries := fun c e he => by rw [cold_ag_none hp] at he; cases he
    buffers := fun b _ => by rw [hbuf]; rfl
    capacities := fun b => by rw [hbuf]; exact Nat.two_pow_pos _
    writes := fun k => by
      rw [State.cold_acia, Fin.getElem_fin, Vector.getElem_replicate]
      exact hp.clockReset
    counter := hsct
    address := haddr
    pulses := fun d => by
      rw [State.cold_fdd, Fin.getElem_fin, Vector.getElem_replicate]
      exact ⟨hp.clockReset, hp.clockReset⟩
    steps := fun d time ht => by
      rw [State.cold_lastStep, Fin.getElem_fin, Vector.getElem_replicate] at ht
      have hstep := hp.resetStep
      rwa [ht] at hstep
    devices := fun k _ => by
      rw [State.cold_acsi, Fin.getElem_fin, Vector.getElem_replicate]
      exact hpresent
    owner := hdev
    owed := nofun }

theorem stable_widthsOk : Stable WidthsOk where
  effect := Effect.widthsOk
  clock hnow hs := { hs with now := hnow }
  boot := cold_widthsOk

/-- Settles O58: each form is stable, and a step is a quiet change, a boot or the effect of a legal instruction. -/
theorem partsKeepTheirForm : Obligations.PartsKeepTheirForm :=
  ⟨fun _ _ hp hs h => stable_buffersOk.step hp hs h,
    fun _ _ hp hs hw h => (stable_written.step hp ⟨hs, hw⟩ h).2,
    fun _ _ hp hs h => stable_linesOk.step hp hs h,
    fun _ _ hp hs h => stable_dmaOk.step hp hs h,
    fun _ _ hp hs h => stable_widthsOk.step hp hs h,
    fun _ _ h => step_par h⟩

end Sys2Proof.Machine
end

section
namespace Sys2Proof.Machine

/-! ### Differences of times inside the half-range -/

theorem two_pow_cw {p : Params} (hp : p.Ok) : 2 ^ p.cw = 2 * 2 ^ (p.cw - 1) := by
  have hcw := hp.cw.1
  rw [← Nat.pow_succ', Nat.succ_eq_add_one, Nat.sub_add_cancel (by omega)]

/-- A number within half the range is not wrapped (00_scope.md R13). -/
theorem bmod_of_half {p : Params} (hp : p.Ok) {x : Int} (hlow : -(2 ^ (p.cw - 1) : Int) ≤ x)
    (hhigh : x < 2 ^ (p.cw - 1)) : x.bmod (2 ^ p.cw) = x := by
  rw [two_pow_cw hp]
  apply Int.bmod_eq_of_le_mul_two <;> push_cast <;> omega

theorem sdiff_lt_half {p : Params} (hp : p.Ok) (a b : Clock) : p.sdiff a b < 2 ^ (p.cw - 1) := by
  have h := Int.bmod_lt (x := (a.toNat : Int) - b.toNat) (Nat.two_pow_pos p.cw)
  unfold Params.sdiff
  rw [two_pow_cw hp] at h ⊢
  push_cast at h
  omega

/-- A time as seen from a later one, while the two distances do not leave the half-range. -/
theorem sdiff_from_later {p : Params} (hp : p.Ok) {a b now : Clock} (hlater : 0 ≤ p.sdiff now b)
    (hlow : -(2 ^ (p.cw - 1) : Int) < p.sdiff a b - p.sdiff now b) :
    p.sdiff a now = p.sdiff a b - p.sdiff now b := by
  have hhigh := sdiff_lt_half hp a b
  have hwrap := bmod_of_half hp (le_of_lt hlow) (by omega)
  have hsum : (a.toNat : Int) - now.toNat = ((a.toNat : Int) - b.toNat) - ((now.toNat : Int) - b.toNat) := by omega
  calc p.sdiff a now = (p.sdiff a b - p.sdiff now b).bmod (2 ^ p.cw) := by
        rw [Params.sdiff, hsum, Params.sdiff, Params.sdiff, Int.bmod_sub_bmod, Int.sub_bmod_bmod]
    _ = p.sdiff a b - p.sdiff now b := hwrap

/-- A number of cycles after a time, while that does not leave the half-range. -/
theorem sdiff_cycles {p : Params} (hp : p.Ok) {a now : Clock} {n : Nat} (hlow : -(2 ^ (p.cw - 1) : Int) < p.sdiff a now + n)
    (hhigh : p.sdiff a now + n < 2 ^ (p.cw - 1)) : p.sdiff (p.cycles (a.toNat + n)) now = p.sdiff a now + n := by
  have hsum : ((a.toNat + n : Nat) : Int) - now.toNat = ((a.toNat : Int) - now.toNat) + n := by omega
  calc p.sdiff (p.cycles (a.toNat + n)) now = (p.sdiff a now + n).bmod (2 ^ p.cw) := by
        rw [Params.sdiff, Params.cycles_toNat p hp.cw.2, Int.natCast_mod, Int.sub_eq_add_neg, Int.emod_add_bmod,
          ← Int.sub_eq_add_neg, hsum, Params.sdiff, Int.bmod_add_bmod]
    _ = p.sdiff a now + n := bmod_of_half hp (le_of_lt hlow) hhigh

/-! ### The clock and the pending entries -/

section
variable {i : Instr} {s u t : State}

theorem Clocked.par (h : Clocked i s u) : u.par = s.par := by
  rcases h with rfl | ⟨_, _, _, rfl⟩ <;> rfl

theorem Clocked.ag (h : Clocked i s u) : u.ag = s.ag := by
  rcases h with rfl | ⟨_, _, _, rfl⟩ <;> rfl

/-- A chip's delays do not depend on the clock. -/
theorem Clocked.chipDelays (h : Clocked i s u) : chipDelays i u = chipDelays i s := by
  rcases h with rfl | ⟨_, _, _, rfl⟩
  · rfl
  · cases i <;> rfl

theorem Clocked.of_untimed (h : Clocked i s u) (hi : instrTime i = none) : u = s := by
  rcases h with h | ⟨_, hnow, _, _⟩
  · exact h
  · rw [hi] at hnow
    cases hnow

theorem Clocked.forward (h : Clocked i s u) : 0 ≤ s.par.sdiff u.now s.now := by
  rcases h with rfl | ⟨_, _, hnow, rfl⟩
  · rw [Params.sdiff_self]
  · exact hnow

/-- A callback carries no time. -/
theorem instrTime_callbackOf (p : Params) (c : CbId) : instrTime (callbackOf p c) = none := by
  unfold callbackOf
  split
  case h_10 =>
    split
    · exact (reservedOf_unchecked c).2
    · rfl
  all_goals rfl

/-- Where an entry lies after an instruction: it stayed, or is a SCHEDULE's, a chip's or one that re-armed itself. -/
def Placed (i : Instr) (s t : State) (c : CbId) (e : AgEntry) : Prop :=
  (s.ag[c] = some e ∧ s.par.sdiff e.fireTime t.now = s.par.sdiff e.fireTime s.now - s.par.sdiff t.now s.now) ∨
  (∃ d, i = .schedule (BitVec.ofNat 8 c.val) e.param d ∧ s.par.sdiff e.fireTime t.now = s.par.sdiff d 0) ∨
  (∃ n ∈ chipDelays i s, s.par.sdiff e.fireTime t.now = n) ∨
  (∃ n ∈ chipDelays i s, ∃ fired, s.ag[c] = some fired ∧
    s.par.sdiff e.fireTime t.now = s.par.sdiff fired.fireTime s.now + n)

/-- The entry lies within half the range of the clock. -/
def Near (t : State) (e : AgEntry) : Prop := -(2 ^ (t.par.cw - 1) : Int) < t.par.sdiff e.fireTime t.now

/-- The callback of an entry runs only when the entry is due. -/
def FiresWhenDue (i : Instr) (s : State) : Prop :=
  ∀ (c : CbId) (e : AgEntry), i = callbackOf s.par c → s.ag[c] = some e → s.par.sdiff e.fireTime s.now ≤ 0

variable {producer : BufId → Port} {c : CbId} {e : AgEntry}

theorem stayed_placed (hp : s.par.Ok) (hr : HalfRange s) (hc : Contract producer i s) (hu : Clocked i s u)
    (he : s.ag[c] = some e) : Near u e ∧ Placed i s u c e := by
  have hlow : -(2 ^ (s.par.cw - 1) : Int) < s.par.sdiff e.fireTime s.now - s.par.sdiff u.now s.now := by
    rcases hu with rfl | ⟨now, hi, hnow, rfl⟩
    · rw [Params.sdiff_self, Int.sub_zero]
      exact hr c e he
    · exact hc.advance now hi hnow c e he
  have heq := sdiff_from_later hp hu.forward hlow
  exact ⟨by rw [Near, hu.par, heq]; exact hlow, .inl ⟨he, heq⟩⟩

theorem scheduled_placed (hp : s.par.Ok) (hc : Contract producer i s) (hu : Clocked i s u) {d : Clock}
    (hi : i = .schedule (BitVec.ofNat 8 c.val) e.param d) (he : e.fireTime = s.par.tadd u.now d) :
    Near u e ∧ Placed i s u c e := by
  have heq : s.par.sdiff e.fireTime u.now = s.par.sdiff d 0 := by rw [he, Params.sdiff_tadd _ hp.cw.2]
  exact ⟨by rw [Near, hu.par, heq]; exact hc.delay _ _ _ hi, .inr (.inl ⟨d, hi, heq⟩)⟩

theorem chip_placed (hp : s.par.Ok) (hc : Contract producer i s) (hu : Clocked i s u) {n : Nat}
    (hn : n ∈ chipDelays i s) (he : e.fireTime = s.par.cycles (u.now.toNat + n)) : Near u e ∧ Placed i s u c e := by
  have hself : s.par.sdiff u.now u.now = 0 := Params.sdiff_self _ _
  have hhigh : (n : Int) < 2 ^ (s.par.cw - 1) := by exact_mod_cast hc.chips n hn
  have heq : s.par.sdiff e.fireTime u.now = n := by
    rw [he, sdiff_cycles hp (by omega) (by omega), hself, Int.zero_add]
  exact ⟨by rw [Near, hu.par, heq]; omega, .inr (.inr (.inl ⟨n, hn, heq⟩))⟩

theorem rearmed_placed (hp : s.par.Ok) (hr : HalfRange s) (hc : Contract producer i s) (hd : FiresWhenDue i s)
    (hu : Clocked i s u) {n : Nat} (hn : n ∈ chipDelays i s) {fired : AgEntry} (hi : i = callbackOf s.par c)
    (hfired : s.ag[c] = some fired) (he : e.fireTime = s.par.cycles (fired.fireTime.toNat + n)) :
    Near u e ∧ Placed i s u c e := by
  obtain rfl : u = s := hu.of_untimed (hi ▸ instrTime_callbackOf _ c)
  have hlow : -(2 ^ (u.par.cw - 1) : Int) < u.par.sdiff fired.fireTime u.now := hr c fired hfired
  have hdue : u.par.sdiff fired.fireTime u.now ≤ 0 := hd c fired hi hfired
  have hhigh : (n : Int) < 2 ^ (u.par.cw - 1) := by exact_mod_cast hc.chips n hn
  have heq : u.par.sdiff e.fireTime u.now = u.par.sdiff fired.fireTime u.now + n := by
    rw [he, sdiff_cycles hp (by omega) (by omega)]
  exact ⟨by rw [Near, heq]; omega, .inr (.inr (.inr ⟨n, hn, fired, hfired, heq⟩))⟩

/-- Every entry pending after an instruction's effect is near the clock and where it was put. -/
theorem effect_placed (hp : s.par.Ok) (hr : HalfRange s) (hc : Contract producer i s) (hd : FiresWhenDue i s)
    (hu : Clocked i s u) (heff : Effect i u t) (he : t.ag[c] = some e) : Near u e ∧ Placed i s u c e := by
  rcases heff.entries (hu.par.symm ▸ hp) c e he with hold | hfresh
  · exact stayed_placed hp hr hc hu (hu.ag ▸ hold)
  · have htime := hfresh.time
    rw [hu.par, hu.ag, hu.chipDelays] at htime
    rcases htime with ⟨d, hi, ht⟩ | ⟨n, hn, ht⟩ | ⟨n, hn, fired, hi, hfired, ht⟩
    · exact scheduled_placed hp hc hu hi ht
    · exact chip_placed hp hc hu hn ht
    · exact rearmed_placed hp hr hc hd hu hn hi hfired ht

/-- RESET leaves no entry pending. -/
theorem reset_ag (hp : s.par.Ok) (ht : exec .reset s = .next t) (c : CbId) : t.ag[c] = none := by
  cases ht
  rw [((quiet_coldBoot s).trans (.answer _ _)).base.ag]
  exact cold_ag_none hp c

theorem exec_placed (hp : s.par.Ok) (hr : HalfRange s) (hc : Contract producer i s) (hd : FiresWhenDue i s)
    (ht : exec i s = .next t) (he : t.ag[c] = some e) : Near t e ∧ Placed i s t c e := by
  by_cases hi : i = .reset
  · subst hi
    rw [reset_ag hp ht c] at he
    cases he
  · obtain ⟨u, hu, heff⟩ := exec_runs i s hi t ht
    have := effect_placed hp hr hc hd hu heff he
    rwa [Near, Placed, ← heff.now, ← heff.par] at this

end

/-- Settles O10: an instruction acts at `NOW` or at the time it carries, and its effect puts no entry but at a delay of its
own. -/
theorem timeOnlyMovesForward : Obligations.TimeOnlyMovesForward := by
  refine ⟨fun i s t hi h => ?_, fun i s t hi hnone h => ?_, fun producer i s t hp hr hc hd h => ?_⟩
  · obtain ⟨u, hu, he⟩ := exec_runs i s hi t h
    rw [he.now]
    exact hu.forward
  · obtain ⟨u, hu, he⟩ := exec_runs i s hi t h
    rw [he.now, hu.of_untimed hnone]
  · exact ⟨fun c e he => (exec_placed hp hr hc hd h he).1, fun c e he => (exec_placed hp hr hc hd h he).2⟩

end Sys2Proof.Machine
end

section
namespace Sys2Proof.Machine

/-! ### What an answer leads to -/

/-- Every state the answer leads to has a property. -/
def Leads (P : State → Prop) (r : Result) : Prop := ∀ t, r = .next t → P t

/-- A property that looks neither at the clock nor at what an answer changes nor at the buffers. -/
structure Blind (P : State → Prop) : Prop where
  answer : ∀ {u : State} (w : Word128), P u → P (u.answer w)
  clock : ∀ {u : State} (now : Clock), P u → P { u with now := now }
  buffers : ∀ {u : State} (cb : Vector CircBuf 256), P u → P { u with cb := cb }

namespace Leads
variable {P : State → Prop} {s u : State}

theorem next (h : P u) : Leads P (.next u) := by
  rintro t ⟨⟩
  exact h

theorem respond (hP : Blind P) {flags rcb : BitVec 8} {data : BitVec 32} {time : Clock} (h : P u) :
    Leads P (respond flags rcb data time u) := next (hP.answer _ h)

theorem raise (hP : Blind P) {e : ErrCode} (h : P u) : Leads P (raise e u) := next (hP.answer _ h)

theorem select (hP : Blind P) (hs : P s) {n m : Nat} {sel : BitVec 8} {body : Fin m → Result}
    (h : ∀ k : Fin m, sel.toNat = k.val → k.val < n → Leads P (body k)) : Leads P (select n sel s body) := by
  unfold Machine.select
  split
  · exact raise hP hs
  · rename_i k hk
    obtain ⟨hn, he⟩ := index_some.1 hk
    exact h k he (he ▸ hn)

theorem timed (hP : Blind P) (hs : P s) {now : Clock} {body : State → Result}
    (h : 0 ≤ s.par.sdiff now s.now → P { s with now := now } → Leads P (body { s with now := now })) :
    Leads P (timed now s body) := by
  unfold Machine.timed
  split
  · exact raise hP hs
  · exact h (by omega) (hP.clock now hs)

theorem external (hP : Blind P) (hs : P s) {cb : BitVec 8} {body : CbId → Result}
    (h : ∀ c : CbId, cb.toNat = c.val → s.par.ncbInt ≤ c.val → c.val < s.par.ncb → Leads P (body c)) :
    Leads P (external cb s body) := by
  refine select hP hs fun c hc hn => ?_
  split
  · exact raise hP hs
  · exact h c hc (by omega) hn

theorem critical (hP : Blind P) (hs : P s) {b : BufId} {body : CircBuf → CircBuf × Word128} :
    Leads P (critical b body s) := by
  intro t ht
  rcases critical_next ht with ⟨_, rfl⟩ | ⟨_, rfl⟩
  · exact hs
  · exact hP.answer _ (hP.buffers _ hs)

theorem onBuffer (hP : Blind P) (hs : P s) {buf : BitVec 8} {body : CircBuf → CircBuf × Word128} :
    Leads P (onBuffer buf body s) := select hP hs fun _ _ _ => critical hP hs

theorem dispatchEntry (hs : P s) {c : CbId} {body : AgEntry → State → Result}
    (h : ∀ e, s.ag[c] = some e → Leads P (body e (s.cancel c))) : Leads P (Machine.dispatchEntry c body s) := by
  intro t ht
  rcases dispatchEntry_next ht with ⟨_, rfl⟩ | ⟨e, he, ht⟩
  · exact hs
  · exact h e he t ht

/-- A callback whose body always goes on. -/
theorem callback (hs : P s) {c : CbId} {f : AgEntry → State → State} (h : ∀ e, s.ag[c] = some e → P (f e (s.cancel c))) :
    Leads P (Machine.dispatchEntry c (fun e s => .next (f e s)) s) := dispatchEntry hs fun e he => next (h e he)

/-- FDD_READ and FDD_WRITE are refused, or go on with the disk and a sector. -/
theorem atSector (hP : Blind P) (hs : P s) {d : Fin 2} {side : Bool} {body : Handle → Sector → Nat → State → Result}
    (hcond : ∀ v, P (setCond d v s)) (hemit : ∀ u e, P u → P (u.emit e))
    (h : ∀ hd n size e, (s.fdd[driveSlot d]).disk = some hd → (s.fdd[driveSlot d]).busy = false →
      (s.fdd[driveSlot d]).motor = true → Leads P (body hd n size (s.emit e))) : Leads P (atSector d side s body) := by
  unfold Machine.atSector
  dsimp only
  split
  · exact raise hP (hcond _)
  · rename_i hd hdisk
    split
    · exact raise hP hs
    · rename_i hbusy
      split
      · exact raise hP hs
      · rename_i hmotor
        split
        · exact raise hP (hcond _)
        · split
          · exact raise hP (hemit _ _ (hcond _))
          · exact h _ _ _ _ hdisk (by simpa using hbusy) (by simpa using hmotor)

end Leads

theorem leads_noRegister {P : State → Prop} {s : State} (hP : Blind P) (hs : P s) (unit : BitVec 8) :
    Leads P (noRegister unit s) := by
  unfold noRegister
  split <;> exact .raise hP hs

/-- A REG_RD that names no register answers an error. -/
theorem Leads.execRegRd {P : State → Prop} {s : State} (hP : Blind P) (hs : P s) {unit : BitVec 8}
    {reg : BitVec 16} {now : Clock}
    (h : ∀ r now, Leads P (readRegister r now s)) : Leads P (execRegRd unit reg now s) := by
  unfold Machine.execRegRd
  split
  · exact h _ _
  · exact leads_noRegister hP hs unit

/-- A REG_WR that names no register answers an error. -/
theorem Leads.execRegWr {P : State → Prop} {s : State} (hP : Blind P) (hs : P s) {unit : BitVec 8}
    {reg : BitVec 16} {v : BitVec 32} {now : Clock} (h : ∀ r v now, Leads P (writeRegister r v now s)) : Leads P (execRegWr unit reg v now s) := by
  unfold Machine.execRegWr
  split
  · exact h _ _ _
  · exact leads_noRegister hP hs unit

/-- A register write that its check passes and the clock accepts goes on. -/
theorem Leads.writeRegister {P : State → Prop} {s : State} (hP : Blind P) (hs : P s) {r : WriteReg}
    {v : BitVec 32} {now : Clock}
    (h : 0 ≤ s.par.sdiff now s.now → P { s with now := now } → Leads P (writeRule r v { s with now := now })) :
    Leads P (writeRegister r v now s) := by
  unfold Machine.writeRegister
  split
  · exact .timed hP hs h
  · exact .raise hP hs

/-! ### The parts an instruction may touch -/

/-- The parts of the machine that the invariants of the chips, of the bus and of the dispatcher speak of. -/
inductive Part where
  /-- The ACIAs and their pins. -/
  | acias
  /-- The floppy slots. -/
  | drives
  /-- The inspection slot, floppy slot 2. -/
  | inspection
  /-- A floppy transfer set going. -/
  | transfers
  /-- The ACSI devices and their bus. -/
  | bus
  /-- The Agenda slot of an ACSI block transfer. -/
  | blocks
  /-- The dispatcher. -/
  | loop
  /-- The DMA controller, its error latch apart, and memory. -/
  | dma
  /-- The times of the heads' last steps. -/
  | steps
deriving DecidableEq, Repr

/-- The part that owns an Agenda slot (30_encoding.md R118). -/
def slotOwner (c : CbId) : Option Part :=
  if c.val < 4 then some .acias else if c.val < 8 then some .drives else if c.val = 8 then some .blocks else none

@[simp] theorem slotOwner_aciaTxId (i : Fin 2) : slotOwner (aciaTxId i) = some .acias := by revert i; decide
@[simp] theorem slotOwner_aciaRxId (i : Fin 2) : slotOwner (aciaRxId i) = some .acias := by revert i; decide
@[simp] theorem slotOwner_fddIndexId (d : Fin 2) : slotOwner (fddIndexId d) = some .drives := by revert d; decide
@[simp] theorem slotOwner_fddXferId (d : Fin 2) : slotOwner (fddXferId d) = some .drives := by revert d; decide
@[simp] theorem slotOwner_acsiBlockId : slotOwner acsiBlockId = some .blocks := rfl

/-- The other identities have no owner among the parts. -/
theorem slotOwner_of_ge {c : CbId} (h : 9 ≤ c.val) : slotOwner c = none := by
  unfold slotOwner
  rw [if_neg (by omega), if_neg (by omega), if_neg (by omega)]

/-- The parts not named are as they were; their Agenda slots, provided that the instruction is a legal one (`L`). -/
structure SameBut (ps : List Part) (L : Prop) (s t : State) : Prop where
  par : t.par = s.par
  acias : .acias ∉ ps → t.acia = s.acia ∧ ∀ i : Fin 2, t.pins.level (aciaLine i) = s.pins.level (aciaLine i)
  drives : .drives ∉ ps → t.fdd = s.fdd
  inspection : .inspection ∉ ps → t.fdd[(2 : Fin 3)] = s.fdd[(2 : Fin 3)]
  transfers : .transfers ∉ ps → ∀ k : Fin 3, (t.fdd[k]).busy = true → (s.fdd[k]).busy = true
  bus : .bus ∉ ps → t.acsi = s.acsi ∧ t.acsiDev = s.acsiDev ∧ t.acsiPending = s.acsiPending ∧ t.ax = s.ax
  loop : .loop ∉ ps → t.disp = s.disp ∧ t.fireCb = s.fireCb
  dma : .dma ∉ ps → t.dma = { s.dma with err := t.dma.err } ∧ t.mem = s.mem
  steps : .steps ∉ ps → t.lastStep = s.lastStep
  slots : L → ∀ c q, slotOwner c = some q → q ∉ ps → t.ag[c] = s.ag[c]

theorem aciaLine_ne_disk (i : Fin 2) : aciaLine i ≠ .disk := by
  unfold aciaLine
  split <;> simp

/-- A drive is busy when it reads or writes. -/
theorem Fdd.busy_iff {f : Fdd} : f.busy = true ↔ f.reading = true ∨ f.writing = true := Bool.or_eq_true_iff

theorem Fdd.busy_of_read_ended (f : Fdd) (h : ({ f with reading := false } : Fdd).busy = true) : f.busy = true :=
  busy_iff.2 (.inr h)

theorem Fdd.busy_of_write_ended (f : Fdd) (h : ({ f with writing := false } : Fdd).busy = true) : f.busy = true :=
  busy_iff.2 ((busy_iff.1 h).imp_right nofun)

theorem inspection_ne_drive (d : Fin 2) : (driveSlot d).val ≠ 2 := by
  simp only [driveSlot, Fin.val_castSucc]
  omega

namespace SameBut
variable {ps : List Part} {L : Prop} {s u t : State}

theorem refl : SameBut ps L s s := by constructor <;> simp

theorem trans (h : SameBut ps L s u) (g : SameBut ps L u t) : SameBut ps L s t where
  par := g.par.trans h.par
  acias hp := ⟨(g.acias hp).1.trans (h.acias hp).1, fun i => ((g.acias hp).2 i).trans ((h.acias hp).2 i)⟩
  drives hp := (g.drives hp).trans (h.drives hp)
  inspection hp := (g.inspection hp).trans (h.inspection hp)
  transfers hp k hk := h.transfers hp k (g.transfers hp k hk)
  bus hp := by
    obtain ⟨h1, h2, h3, h4⟩ := h.bus hp
    obtain ⟨g1, g2, g3, g4⟩ := g.bus hp
    exact ⟨g1.trans h1, g2.trans h2, g3.trans h3, g4.trans h4⟩
  loop hp := ⟨(g.loop hp).1.trans (h.loop hp).1, (g.loop hp).2.trans (h.loop hp).2⟩
  dma hp := by
    refine ⟨?_, (g.dma hp).2.trans (h.dma hp).2⟩
    have hg := (g.dma hp).1
    rw [(h.dma hp).1] at hg
    exact hg
  steps hp := (g.steps hp).trans (h.steps hp)
  slots hl c q hq hp := (g.slots hl c q hq hp).trans (h.slots hl c q hq hp)

/-- Touching fewer parts. -/
theorem mono {qs : List Part} (h : SameBut qs L s t) (hsub : qs ⊆ ps) : SameBut ps L s t where
  par := h.par
  acias hp := h.acias fun hq => hp (hsub hq)
  drives hp := h.drives fun hq => hp (hsub hq)
  inspection hp := h.inspection fun hq => hp (hsub hq)
  transfers hp := h.transfers fun hq => hp (hsub hq)
  bus hp := h.bus fun hq => hp (hsub hq)
  loop hp := h.loop fun hq => hp (hsub hq)
  dma hp := h.dma fun hq => hp (hsub hq)
  steps hp := h.steps fun hq => hp (hsub hq)
  slots hl c q hc hp := h.slots hl c q hc fun hq => hp (hsub hq)

theorem blind (ps : List Part) (L : Prop) (s : State) : Blind (SameBut ps L s) where
  answer w h := h.trans (by constructor <;> simp)
  clock now h := h.trans (by constructor <;> simp)
  buffers cb h := h.trans (by constructor <;> simp)

theorem setSlot (h : SameBut ps L s u) (c : CbId) (x : Option AgEntry) (hc : L → ∀ q ∈ slotOwner c, q ∈ ps) :
    SameBut ps L s { u with ag := u.ag.set c x } :=
  { h with
    slots := fun hl c' q hq hp => by
      have hne : c ≠ c' := fun e => hp (hc hl q (e ▸ hq))
      rw [ag_set_other _ _ hne]
      exact h.slots hl c' q hq hp }

theorem cancel (h : SameBut ps L s u) (c : CbId) (hc : L → ∀ q ∈ slotOwner c, q ∈ ps) :
    SameBut ps L s (u.cancel c) := h.setSlot c none hc

theorem schedule (h : SameBut ps L s u) (c : CbId) (d : Clock) (p : Param)
    (hc : L → ∀ q ∈ slotOwner c, q ∈ ps) : SameBut ps L s (u.schedule c d p) := h.setSlot c _ hc

/-- A slot whose owner is among the parts. -/
theorem owned {c : CbId} {p : Part} (hc : slotOwner c = some p) (hp : p ∈ ps) : L → ∀ q ∈ slotOwner c, q ∈ ps := by
  rintro _ q hq
  rw [hc] at hq
  cases hq
  exact hp

/-- A slot that no part owns. -/
theorem unowned {c : CbId} (hc : L → 9 ≤ c.val) : L → ∀ q ∈ slotOwner c, q ∈ ps := by
  intro hl q hq
  rw [slotOwner_of_ge (hc hl)] at hq
  cases hq

theorem emit (h : SameBut ps L s u) (e : Event) : SameBut ps L s (u.emit e) := h.trans (by constructor <;> simp)

theorem setDiskPin (h : SameBut ps L s u) (v : Bool) : SameBut ps L s (u.setPin .disk v) :=
  h.trans (by constructor <;> simp [State.setPin_level_other _ _ _ _ (aciaLine_ne_disk _)])

/-! #### The dispatcher -/

theorem setDisp (hp : .loop ∈ ps) (h : SameBut ps L s u) (d : Disp) : SameBut ps L s { u with disp := d } :=
  h.trans (by constructor <;> simp [hp])

/-! #### The ACIAs -/

theorem modAcia (hp : .acias ∈ ps) (h : SameBut ps L s u) (i : Fin 2) (f : Acia → Acia) :
    SameBut ps L s (u.modAcia i f) := h.trans (by constructor <;> simp [hp])

theorem checkIrq (hp : .acias ∈ ps) (h : SameBut ps L s u) (i : Fin 2) : SameBut ps L s (checkIrq i u) :=
  h.trans (by constructor <;> simp [hp])

theorem aciaReset (hp : .acias ∈ ps) (h : SameBut ps L s u) (i : Fin 2) : SameBut ps L s (aciaReset i u) :=
  (((h.modAcia hp i _).cancel _ (by simp [hp])).cancel _ (by simp [hp])).checkIrq hp i

theorem setControl (hp : .acias ∈ ps) (h : SameBut ps L s u) (i : Fin 2) (v : Byte) :
    SameBut ps L s (setControl i v u) := by
  unfold Machine.setControl
  dsimp only
  refine ((?_ : SameBut ps L s _).modAcia hp i _).checkIrq hp i
  split
  · exact h.aciaReset hp i
  · exact h

theorem transmitTdr (hp : .acias ∈ ps) (h : SameBut ps L s u) (i : Fin 2) : SameBut ps L s (transmitTdr i u) :=
  (((h.modAcia hp i _).checkIrq hp i).modAcia hp i _).schedule _ _ _ (by simp [hp])

theorem writeTdr (hp : .acias ∈ ps) (h : SameBut ps L s u) (i : Fin 2) (v : Byte) :
    SameBut ps L s (writeTdr i v u) := by
  unfold Machine.writeTdr
  dsimp only
  refine (?_ : SameBut ps L s _).checkIrq hp i
  split
  · exact h.modAcia hp i _
  · exact (h.modAcia hp i _).transmitTdr hp i

theorem readRdr (hp : .acias ∈ ps) (h : SameBut ps L s u) (i : Fin 2) : SameBut ps L s (readRdr i u) :=
  (h.modAcia hp i _).checkIrq hp i

theorem aciaTxDone (hp : .acias ∈ ps) (h : SameBut ps L s u) (i : Fin 2) : SameBut ps L s (aciaTxDone i u) := by
  unfold Machine.aciaTxDone
  dsimp only
  refine (?_ : SameBut ps L s _).checkIrq hp i
  split
  · exact (h.emit _).modAcia hp i _
  · exact SameBut.transmitTdr hp (h.emit _) i

theorem aciaRxDone (hp : .acias ∈ ps) (h : SameBut ps L s u) (i : Fin 2) : SameBut ps L s (aciaRxDone i u) :=
  (h.modAcia hp i _).checkIrq hp i

theorem receiveByte (hp : .acias ∈ ps) (h : SameBut ps L s u) (i : Fin 2) (b : Byte) :
    SameBut ps L s (receiveByte i b u) := (h.modAcia hp i _).schedule _ _ _ (by simp [hp])

/-! #### The DMA controller and the oracle -/

theorem dmaError (h : SameBut ps L s u) : SameBut ps L s (dmaError u) := h.trans (by constructor <;> simp [Machine.dmaError])

theorem modDma (hp : .dma ∈ ps) (h : SameBut ps L s u) (f : Dma → Dma) : SameBut ps L s (u.modDma f) :=
  h.trans (by constructor <;> simp [hp])

theorem drqInAll (hp : .dma ∈ ps) (h : SameBut ps L s u) (l : List Byte) : SameBut ps L s (drqInAll l u) :=
  h.trans (by constructor <;> simp [hp])

theorem drqOutAll (hp : .dma ∈ ps) (h : SameBut ps L s u) (n : Nat) : SameBut ps L s (drqOutAll n u).2 :=
  h.trans (by constructor <;> simp [hp])

theorem fetchSector (h : SameBut ps L s u) (d : Fin 2) (hd : Handle) (n : Sector) (z : Nat) :
    SameBut ps L s (fetchSector d hd n z u).2 := h.trans (by constructor <;> simp)

theorem storeSector (h : SameBut ps L s u) (d : Fin 2) (b : List Byte) : SameBut ps L s (storeSector d b u).2 :=
  h.trans (by constructor <;> simp)

theorem readBlock (h : SameBut ps L s u) (k : Dev) : SameBut ps L s (readBlock k u).2 :=
  h.trans (by constructor <;> simp)

theorem writeBlock (h : SameBut ps L s u) (k : Dev) (n : Sector) (b : List Byte) :
    SameBut ps L s (writeBlock k n b u).2 := h.trans (by constructor <;> simp)

/-! #### The drives -/

theorem modFdd_busy (u : State) (d : Fin 3) {f : Fdd → Fdd} (hf : ∀ a, (f a).busy = true → a.busy = true) (k : Fin 3)
    (hk : ((u.modFdd d f).fdd[k]).busy = true) : (u.fdd[k]).busy = true := by
  by_cases hd : d = k
  · subst hd
    exact hf _ (by simpa using hk)
  · have hne : d.val ≠ k.val := fun e => hd (Fin.ext e)
    simpa [Vector.getElem_set_ne _ _ hne] using hk

theorem modSlot (hp : .drives ∈ ps) (hq : .inspection ∈ ps) (h : SameBut ps L s u) (d : Fin 3) (f : Fdd → Fdd)
    (hf : ∀ a, (f a).busy = true → a.busy = true) : SameBut ps L s (u.modFdd d f) :=
  h.trans { (refl : SameBut ps L u u) with
    drives := fun hn => absurd hp hn
    inspection := fun hn => absurd hq hn
    transfers := fun _ => modFdd_busy u d hf }

/-- A drive changed, no transfer being set going unless that is allowed. -/
theorem modFdd (hp : .drives ∈ ps) (h : SameBut ps L s u) (d : Fin 2) (f : Fdd → Fdd)
    (hf : .transfers ∉ ps → ∀ a, (f a).busy = true → a.busy = true) :
    SameBut ps L s (u.modFdd (driveSlot d) f) :=
  h.trans { (refl : SameBut ps L u u) with
    drives := fun hn => absurd hp hn
    inspection := fun _ => Vector.getElem_set_ne (driveSlot d).isLt _ (inspection_ne_drive d)
    transfers := fun hn => modFdd_busy u _ (hf hn) }

theorem setCond (hp : .drives ∈ ps) (h : SameBut ps L s u) (d : Fin 2) (v : Byte) :
    SameBut ps L s (setCond d v u) := h.modFdd hp d (fun f => { f with cond := v }) fun _ _ => id

theorem motorOn (hp : .drives ∈ ps) (h : SameBut ps L s u) (d : Fin 2) : SameBut ps L s (motorOn d u) :=
  (h.modFdd hp d _ (by exact fun _ _ => id)).schedule _ _ _ (by simp [hp])

theorem motorOff (hp : .drives ∈ ps) (h : SameBut ps L s u) (d : Fin 2) : SameBut ps L s (motorOff d u) :=
  (h.modFdd hp d _ (by exact fun _ _ => id)).cancel _ (by simp [hp])

theorem indexPulse (hp : .drives ∈ ps) (h : SameBut ps L s u) (d : Fin 2) (ft : Clock) :
    SameBut ps L s (indexPulse d ft u) := ((h.modFdd hp d _ (by exact fun _ _ => id)).schedule _ _ _ (by simp [hp])).emit _

theorem stepHead (hp : .drives ∈ ps) (hq : .steps ∈ ps) (h : SameBut ps L s u) (d : Fin 2) (dir : Bool) :
    SameBut ps L s (stepHead d dir u) :=
  (h.modFdd hp d (fun f => { f with track := stepTrack u.par f.track dir }) fun _ _ => id).trans
    (by constructor <;> simp [hq, Machine.stepHead])

theorem scheduleTransfer (hp : .drives ∈ ps) (h : SameBut ps L s u) (d : Fin 2) (size : Nat) :
    SameBut ps L s (scheduleTransfer d size u) := h.schedule _ _ _ (by simp [hp])

theorem finishRead (hp : .drives ∈ ps) (hq : .dma ∈ ps) (h : SameBut ps L s u) (d : Fin 2) :
    SameBut ps L s (finishRead d u) := (h.drqInAll hq _).modFdd hp _ _ fun _ => Fdd.busy_of_read_ended

theorem finishWrite (hp : .drives ∈ ps) (hq : .dma ∈ ps) (h : SameBut ps L s u) (d : Fin 2) :
    SameBut ps L s (finishWrite d u) := by
  unfold Machine.finishWrite
  dsimp only
  have asked := h.drqOutAll hq (u.fdd[driveSlot d]).xfSize
  refine (?_ : SameBut ps L s _).modFdd hp _ _ fun _ => Fdd.busy_of_write_ended
  split
  · exact asked.setCond hp _ _
  · split
    · exact asked.storeSector _ _
    · exact ((asked.storeSector _ _).setCond hp _ _).dmaError

theorem fddXferDone (hp : .drives ∈ ps) (hq : .dma ∈ ps) (h : SameBut ps L s u) (d : Fin 2) :
    SameBut ps L s (fddXferDone d u) := by
  unfold Machine.fddXferDone
  refine (?_ : SameBut ps L s _).setDiskPin _
  split
  · exact h.finishRead hp hq d
  · exact h.finishWrite hp hq d

/-! #### The ACSI bus -/

theorem modAcsi (hp : .bus ∈ ps) (h : SameBut ps L s u) (k : Dev) (f : AcsiDev → AcsiDev) :
    SameBut ps L s (u.modAcsi k f) := h.trans (by constructor <;> simp [hp])

theorem setAx (hp : .bus ∈ ps) (h : SameBut ps L s u) (a : AcsiXfer) : SameBut ps L s { u with ax := a } :=
  h.trans (by constructor <;> simp [hp])

theorem setOwner (hp : .bus ∈ ps) (h : SameBut ps L s u) (k : Dev) : SameBut ps L s { u with acsiDev := k } :=
  h.trans (by constructor <;> simp [hp])

theorem setOwed (hp : .bus ∈ ps) (h : SameBut ps L s u) (o : Option Dev) : SameBut ps L s { u with acsiPending := o } :=
  h.trans (by constructor <;> simp [hp])

theorem acsiReport (hp : .bus ∈ ps) (h : SameBut ps L s u) (k : Dev) (st er : Byte) :
    SameBut ps L s (acsiReport k st er u) := h.modAcsi hp _ _

theorem acsiBegin (hp : .bus ∈ ps) (h : SameBut ps L s u) (k : Dev) : SameBut ps L s (acsiBegin k u) :=
  h.acsiReport hp _ _ _

theorem acsiFinish (hp : .bus ∈ ps) (h : SameBut ps L s u) (k : Dev) : SameBut ps L s (acsiFinish k u) :=
  (h.modAcsi hp _ _).setDiskPin _

theorem blockMoved (hp : .bus ∈ ps) (h : SameBut ps L s u) (k : Dev) : SameBut ps L s (blockMoved k u).2 :=
  (h.setAx hp { u.ax with lba := u.ax.lba + 1, left := u.ax.left - 1 }).modAcsi hp k fun a =>
    { a with curLba := curLbaOf (u.ax.lba + 1) }

theorem moveBlock (hp : .bus ∈ ps) (hq : .dma ∈ ps) (h : SameBut ps L s u) (k : Dev) :
    SameBut ps L s (moveBlock k u).2 := by
  unfold Machine.moveBlock
  split
  · unfold moveIn
    split
    · exact ((h.readBlock k).dmaError).acsiReport hp _ _ _
    · exact ((h.readBlock k).drqInAll hq _).blockMoved hp k
  · unfold moveOut
    have asked := h.drqOutAll hq u.par.acsiBlockBytes
    dsimp only
    split
    · exact asked.acsiReport hp _ _ _
    · split
      · exact (asked.writeBlock _ _ _).blockMoved hp k
      · exact ((asked.writeBlock _ _ _).dmaError).acsiReport hp _ _ _

theorem moveBlocks (hp : .bus ∈ ps) (hq : .dma ∈ ps) (h : SameBut ps L s u) (k : Dev) (n : Nat) :
    SameBut ps L s (moveBlocks k n u) := by
  induction n generalizing u with
  | zero => exact h
  | succ n ih =>
    unfold Machine.moveBlocks
    dsimp only
    split
    · exact ih (h.moveBlock hp hq k)
    · exact h.moveBlock hp hq k

theorem endTransfer (hp : .bus ∈ ps) (h : SameBut ps L s u) (k : Dev) : SameBut ps L s (endTransfer k u) :=
  (h.setAx hp _).acsiFinish hp k

theorem formatSectors (hp : .bus ∈ ps) (h : SameBut ps L s u) (k : Dev) (l : Nat) (n : Sector) :
    SameBut ps L s (formatSectors k l n u) := by
  induction l generalizing n u with
  | zero => exact h
  | succ l ih =>
    unfold Machine.formatSectors
    dsimp only
    split
    · exact ih (h.writeBlock _ _ _) _
    · exact ((h.writeBlock _ _ _).acsiReport hp _ _ _).dmaError

theorem startTransfer (hp : .bus ∈ ps) (hb : .blocks ∈ ps) (hq : .dma ∈ ps) (h : SameBut ps L s u) (k : Dev) (dir : Dir)
    (lba : BitVec 24) (count : Byte) : SameBut ps L s (startTransfer k dir lba count u) := by
  unfold Machine.startTransfer
  split
  · exact (h.acsiReport hp _ _ _).acsiFinish hp k
  · have started := (h.setAx hp { dir := dir, lba := lba.setWidth 32, left := count.toNat }).modAcsi hp k
      fun a => { a with curLba := lba }
    dsimp only
    split
    · exact started.acsiFinish hp k
    · split
      · exact started.schedule _ _ _ (by simp [hb])
      · exact (started.moveBlocks hp hq k _).endTransfer hp k

theorem acsiBlockDone (hp : .bus ∈ ps) (hb : .blocks ∈ ps) (hq : .dma ∈ ps) (h : SameBut ps L s u) (k : Dev) (ft : Clock) :
    SameBut ps L s (acsiBlockDone k ft u) := by
  unfold Machine.acsiBlockDone
  have moved := h.moveBlock hp hq k
  dsimp only
  split
  · exact moved.schedule _ _ _ (by simp [hb])
  · exact moved.endTransfer hp k

end SameBut

/-! ### The parts of each instruction -/

/-- The parts that the read of a register touches. -/
def readParts : ReadReg → List Part
  | .aciaRdr _ => [.acias]
  | _ => []

/-- The parts that the write of a register touches. -/
def writeParts : WriteReg → List Part
  | .engineCfg => []
  | .aciaCr _ | .aciaTdr _ => [.acias]
  | .dmaMcr | .dmaSct | .dmaAddr => [.dma]
  | .fddCpb _ => [.drives]
  | .acsibusByte => [.bus]

theorem writeParts_subset (r : WriteReg) : writeParts r ⊆ [.acias, .drives, .bus, .dma] := by
  cases r <;> simp [writeParts]

/-- The parts that an instruction other than RESET touches. -/
def partsOf : Instr → List Part
  | .advance _ | .fireAck _ | .cbExt _ => [.loop]
  | .regRd _ _ _ | .regRdAcia0Rdr _ | .regRdAcia1Rdr _ => [.acias]
  | .regWr _ _ _ _ => [.acias, .drives, .bus, .dma]
  | .aciaRxbyte _ _ _ | .cbAcia0Tx | .cbAcia0Rx | .cbAcia1Tx | .cbAcia1Rx => [.acias]
  | .regWrAcia0Cr _ _ | .regWrAcia0Tdr _ _ | .regWrAcia1Cr _ _ | .regWrAcia1Tdr _ _ => [.acias]
  | .regWrDmaMcr _ _ | .regWrDmaSct _ _ | .regWrDmaAddr _ _ => [.dma]
  | .fddMount _ _ _ _ | .fddUnmount _ => [.drives, .inspection]
  | .fddRead _ _ _ | .fddWrite _ _ _ => [.drives, .transfers]
  | .fddMotor _ _ _ => [.drives]
  | .regWrFddCpb _ _ _ | .cbFdd0Index | .cbFdd1Index => [.drives]
  | .fddStep _ _ _ => [.drives, .steps]
  | .cbFdd0Xfer | .cbFdd1Xfer => [.drives, .dma]
  | .acsiAttach _ _ _ | .acsiDetach _ | .regWrAcsibusByte _ _ => [.bus]
  | .acsiReady _ _ _ _ | .acsiFormat _ _ _ _ | .acsiSeek _ _ _ _ | .acsiInvalid _ _ _ _ _ => [.bus]
  | .acsiRequestSense _ _ _ _ | .acsiInquiry _ _ _ _ | .acsiModeSelect _ _ _ _ => [.bus, .dma]
  | .acsiRead _ _ _ _ | .acsiWrite _ _ _ _ | .cbAcsiBlock => [.bus, .blocks, .dma]
  | _ => []

/-! ### What every instruction leaves alone -/

section
variable {L : Prop} (s : State)

theorem leads_readRule (r : ReadReg) : Leads (SameBut (readParts r) L s) (readRule r s) := by
  have hb := SameBut.blind (readParts r) L s
  cases r
  case aciaRdr i => exact .respond hb (SameBut.refl.readRdr (List.mem_singleton.2 rfl) i)
  case fddCond d => exact .respond hb (SameBut.refl.setDiskPin false)
  case acsibusStatus => exact .respond hb (SameBut.refl.setDiskPin false)
  case fddBytepos d =>
    unfold readRule readBytepos
    dsimp only
    split <;> exact .respond hb .refl
  all_goals exact .respond hb .refl

theorem leads_acsiBusWrite (v : Byte) : Leads (SameBut [.bus] L s) (acsiBusWrite v s) := by
  have hb := SameBut.blind [.bus] L s
  have hp : Part.bus ∈ [Part.bus] := List.mem_singleton.2 rfl
  have taken := (SameBut.refl (ps := [.bus]) (L := L) (s := s)).modAcsi hp s.acsiDev (AcsiDev.take v)
  unfold acsiBusWrite
  dsimp only
  split
  · split
    · exact .next (taken.setOwed hp _)
    · exact .respond hb taken
  · split
    · exact .respond hb .refl
    · split
      · exact .respond hb .refl
      · split
        · exact .respond hb ((SameBut.refl.setOwner hp _).modAcsi hp _ _)
        · exact .respond hb .refl

theorem leads_writeCpb (d : Fin 2) (v : BitVec 32) : Leads (SameBut [.drives] L s) (writeCpb d v s) := by
  have hb := SameBut.blind [.drives] L s
  unfold writeCpb
  split
  · exact .raise hb .refl
  · split
    · exact .raise hb .refl
    · exact .respond hb (SameBut.refl.modFdd (List.mem_singleton.2 rfl) d (fun f => { f with cpb := v }) fun _ _ => id)

theorem leads_writeRule (r : WriteReg) (v : BitVec 32) : Leads (SameBut (writeParts r) L s) (writeRule r v s) := by
  have hb := SameBut.blind (writeParts r) L s
  have same : ∀ {ps : List Part}, SameBut ps L s s := .refl
  have here : ∀ {q : Part}, q ∈ [q] := List.mem_singleton.2 rfl
  cases r
  case engineCfg => exact .respond hb (by constructor <;> simp)
  case aciaCr i => exact .respond hb (same.setControl here i _)
  case aciaTdr i => exact .respond hb (same.writeTdr here i _)
  case dmaMcr => exact .respond hb (same.modDma here _)
  case dmaSct => exact .respond hb (same.modDma here _)
  case dmaAddr => exact .respond hb (same.modDma here _)
  case fddCpb d => exact leads_writeCpb s d v
  case acsibusByte => exact leads_acsiBusWrite s _

theorem Leads.mono {P Q : State → Prop} {r : Result} (h : Leads P r) (hpq : ∀ t, P t → Q t) : Leads Q r :=
  fun t ht => hpq t (h t ht)

theorem leads_readRegister {ps : List Part} (r : ReadReg) (now : Clock) (h : readParts r ⊆ ps) :
    Leads (SameBut ps L s) (readRegister r now s) :=
  .timed (SameBut.blind ps L s) .refl fun _ ht => (leads_readRule _ r).mono fun _ hu => ht.trans (hu.mono h)

theorem leads_writeRegister {ps : List Part} (r : WriteReg) (v : BitVec 32) (now : Clock) (h : writeParts r ⊆ ps) :
    Leads (SameBut ps L s) (writeRegister r v now s) :=
  .writeRegister (SameBut.blind ps L s) .refl fun _ ht => (leads_writeRule _ r v).mono fun _ hu => ht.trans (hu.mono h)

theorem leads_execRegRd (unit : BitVec 8) (reg : BitVec 16) (now : Clock) :
    Leads (SameBut [.acias] L s) (execRegRd unit reg now s) :=
  .execRegRd (SameBut.blind _ L s) .refl fun r now => leads_readRegister s r now (by cases r <;> simp [readParts])

theorem leads_execRegWr {ps : List Part} (unit : BitVec 8) (reg : BitVec 16) (v : BitVec 32) (now : Clock)
    (h : ∀ r, writeRegAt unit reg = some r → writeParts r ⊆ ps) :
    Leads (SameBut ps L s) (execRegWr unit reg v now s) := by
  unfold execRegWr
  split
  · exact leads_writeRegister s _ v now (h _ ‹_›)
  · exact leads_noRegister (SameBut.blind _ L s) .refl unit

theorem leads_execFddMotor (drive : BitVec 8) (on : Bool) (now : Clock) :
    Leads (SameBut [.drives] L s) (execFddMotor drive on now s) := by
  have hb := SameBut.blind [.drives] L s
  have hp : Part.drives ∈ [Part.drives] := List.mem_singleton.2 rfl
  refine .select hb .refl fun d _ _ => .timed hb .refl fun _ h => ?_
  dsimp only
  split
  · exact .respond hb h
  · split
    · exact .respond hb (h.motorOn hp d)
    · split
      · exact .raise hb h
      · exact .respond hb (h.motorOff hp d)

theorem leads_execFddStep (drive : BitVec 8) (dir : Bool) (now : Clock) :
    Leads (SameBut [.drives, .steps] L s) (execFddStep drive dir now s) := by
  have hb := SameBut.blind [.drives, .steps] L s
  refine .select hb .refl fun d _ _ => .timed hb .refl fun _ h => ?_
  dsimp only
  split
  · exact .raise hb h
  · exact .respond hb (h.stepHead (by simp) (by simp) d dir)

theorem leads_execFddRead (drive : BitVec 8) (side : Bool) (now : Clock) :
    Leads (SameBut [.drives, .transfers] L s) (execFddRead drive side now s) := by
  have hb := SameBut.blind [.drives, .transfers] L s
  have hp : Part.drives ∈ [Part.drives, Part.transfers] := List.mem_cons_self
  refine .select hb .refl fun d _ _ => .timed hb .refl fun _ h =>
    .atSector hb h (h.setCond hp d) (fun _ e hu => hu.emit e) fun hd n size e _ _ _ => ?_
  have fetched := (h.emit e).fetchSector d hd n size
  dsimp only
  split
  · exact .raise hb (fetched.setCond hp d 3).dmaError
  · exact .respond hb ((fetched.modFdd hp _ _ fun hn => absurd (by simp) hn).scheduleTransfer hp d size)

theorem leads_execFddWrite (drive : BitVec 8) (side : Bool) (now : Clock) :
    Leads (SameBut [.drives, .transfers] L s) (execFddWrite drive side now s) := by
  have hb := SameBut.blind [.drives, .transfers] L s
  have hp : Part.drives ∈ [Part.drives, Part.transfers] := List.mem_cons_self
  exact .select hb .refl fun d _ _ => .timed hb .refl fun _ h =>
    .atSector hb h (h.setCond hp d) (fun _ e hu => hu.emit e) fun _ _ size e _ _ _ =>
      .respond hb (((h.emit e).modFdd hp _ _ fun hn => absurd (by simp) hn).scheduleTransfer hp d size)

theorem leads_execFddConv {P : State → Prop} (hP : Blind P) (hs : P s) (fn : BitVec 16) (arg : BitVec 32) :
    Leads P (execFddConv fn arg s) := by
  unfold execFddConv
  split
  · exact .raise hP hs
  · split
    · exact .respond hP hs
    · exact .raise hP hs

theorem leads_execAdvance (now : Clock) : Leads (SameBut [.loop] L s) (execAdvance now s) := by
  have hb := SameBut.blind [.loop] L s
  unfold execAdvance
  split
  · exact .timed hb .refl fun _ h => .next (h.trans (by constructor <;> simp))
  · exact .raise hb .refl

end

theorem leads_execAcsiSeek (s : State) {L : Prop} (k : Dev) (lba : BitVec 24) (count ctrl : Byte) :
    Leads (SameBut [.bus] L s) (execAcsiSeek k lba count ctrl s) := by
  have hp : Part.bus ∈ [Part.bus] := List.mem_singleton.2 rfl
  have begun := (SameBut.refl (ps := [.bus]) (L := L) (s := s)).acsiBegin hp k
  unfold execAcsiSeek
  dsimp only
  refine .respond (SameBut.blind _ L s) (((?_ : SameBut [.bus] L s _).acsiFinish hp k).setOwed hp none)
  split
  · exact begun.acsiReport hp _ _ _
  · exact begun.modAcsi hp _ _

theorem leads_execCbExt (n : CbId) (s : State) : Leads (SameBut [.loop] (Legal (.cbExt n) s) s) (execCbExt n s) := by
  have hb := SameBut.blind [.loop] (Legal (.cbExt n) s) s
  refine .dispatchEntry .refl fun e _ =>
    .respond hb (.emit (.trans (SameBut.refl.cancel (extId s.par n) (SameBut.unowned fun hl => ?_)) ?_) _)
  · have hid : (extId s.par n).val = (s.par.ncbInt + n.val) % 256 := rfl
    have hn := hl.host n rfl
    obtain ⟨h9, _, h256⟩ := hl.ok.identities
    omega
  · constructor <;> simp

/-- Every instruction but RESET leaves alone what is not among its parts. -/
theorem exec_sameBut (i : Instr) (s : State) (hi : i ≠ .reset) :
    Leads (SameBut (partsOf i) (Legal i s) s) (exec i s) := by
  have hb := SameBut.blind (partsOf i) (Legal i s) s
  have same : ∀ {ps : List Part} {L : Prop}, SameBut ps L s s := .refl
  have here : ∀ {q : Part} {ps : List Part}, q ∈ q :: ps := List.mem_cons_self
  have next : ∀ {q r : Part} {ps : List Part}, q ∈ r :: q :: ps := by simp
  have third : ∀ {q r p : Part}, q ∈ [p, r, q] := by simp
  have own : ∀ {c : CbId} {q : Part} {ps : List Part} {L : Prop}, slotOwner c = some q →
      L → ∀ q' ∈ slotOwner c, q' ∈ q :: ps := fun hc => SameBut.owned hc here
  cases i
  case reset => exact absurd rfl hi
  case nop => exact .respond hb same
  case advance => exact leads_execAdvance s _
  case schedule cb param delay =>
    exact .external hb same fun c _ hc _ => .respond hb (same.schedule c _ _ (SameBut.unowned fun hl =>
      Nat.le_trans hl.ok.identities.1 hc))
  case cancel cb =>
    exact .external hb same fun c _ hc _ => .respond hb (same.cancel c (SameBut.unowned fun hl =>
      Nat.le_trans hl.ok.identities.1 hc))
  case fireAck =>
    exact .external hb same fun c _ _ _ => by
      split
      · exact .raise hb same
      · exact .next (.setDisp here same _)
  case agQuery => exact .select hb same fun c _ _ => by split <;> exact .respond hb same
  case cbCreate =>
    exact .select hb same fun _ _ _ => by
      split
      · exact .raise hb same
      · exact .critical hb same
  case cbDestroy => exact .select hb same fun _ _ _ => .critical hb same
  case cbReset => exact .select hb same fun _ _ _ => .critical hb same
  case cbAddbytes =>
    exact .select hb same fun _ _ _ => by
      split
      · exact .raise hb same
      · exact .critical hb same
  case cbAddbyte | cbReadbyte | cbNextbyte | cbArebytes | cbCount => exact .onBuffer hb same
  case regRd => exact leads_execRegRd s _ _ _
  case regWr => exact leads_execRegWr s _ _ _ _ fun r _ => writeParts_subset r
  case aciaRxbyte =>
    exact .select hb same fun i _ _ => .timed hb same fun _ h => by
      split
      · exact .raise hb h
      · exact .respond hb (h.receiveByte here i _)
  case fddMount =>
    exact .select hb same fun d _ _ => by
      split
      · exact .raise hb same
      · exact .respond hb (same.modSlot here next d _ (by exact fun _ => id))
  case fddUnmount =>
    exact .select hb same fun d _ _ => by
      split
      · exact .raise hb same
      · exact .respond hb (same.modSlot here next d _ (by exact fun _ => id))
  case fddMotor => exact leads_execFddMotor s _ _ _
  case fddStep => exact leads_execFddStep s _ _ _
  case fddRead => exact leads_execFddRead s _ _ _
  case fddWrite => exact leads_execFddWrite s _ _ _
  case fddConv => exact leads_execFddConv s hb same _ _
  case acsiAttach =>
    exact .select hb same fun k _ _ => by
      split
      · exact .raise hb same
      · exact .respond hb (same.modAcsi here k _)
  case acsiDetach =>
    exact .select hb same fun k _ _ => by
      split
      · exact .raise hb same
      · exact .respond hb (same.modAcsi here k _)
  case acsiReady k _ _ _ => exact .respond hb (((same.acsiBegin here k).acsiFinish here k).setOwed here none)
  case acsiRequestSense k _ _ _ =>
    exact .respond hb ((((((same.modAcsi here k _).drqInAll next _).modAcsi here k _)).acsiFinish here k).setOwed here none)
  case acsiFormat k _ _ _ =>
    exact .respond hb ((((same.acsiBegin here k).formatSectors here k _ _).acsiFinish here k).setOwed here none)
  case acsiRead k _ _ _ =>
    exact .respond hb (((same.acsiBegin here k).startTransfer here next third k _ _ _).setOwed here none)
  case acsiWrite k _ _ _ =>
    exact .respond hb (((same.acsiBegin here k).startTransfer here next third k _ _ _).setOwed here none)
  case acsiSeek k lba count ctrl => exact leads_execAcsiSeek s k lba count ctrl
  case acsiInquiry k _ _ _ =>
    exact .respond hb ((((same.acsiBegin here k).drqInAll next _).acsiFinish here k).setOwed here none)
  case acsiModeSelect k _ _ _ =>
    exact .respond hb ((((same.acsiBegin here k).drqOutAll next _).acsiFinish here k).setOwed here none)
  case acsiInvalid k _ _ _ _ => exact .respond hb (((same.acsiReport here k _ _).acsiFinish here k).setOwed here none)
  case cbAcia0Tx => exact .callback same fun _ _ => (same.cancel _ (own (slotOwner_aciaTxId 0))).aciaTxDone here 0
  case cbAcia0Rx => exact .callback same fun _ _ => (same.cancel _ (own (slotOwner_aciaRxId 0))).aciaRxDone here 0
  case cbAcia1Tx => exact .callback same fun _ _ => (same.cancel _ (own (slotOwner_aciaTxId 1))).aciaTxDone here 1
  case cbAcia1Rx => exact .callback same fun _ _ => (same.cancel _ (own (slotOwner_aciaRxId 1))).aciaRxDone here 1
  case cbFdd0Index => exact .callback same fun _ _ => (same.cancel _ (own (slotOwner_fddIndexId 0))).indexPulse here 0 _
  case cbFdd1Index => exact .callback same fun _ _ => (same.cancel _ (own (slotOwner_fddIndexId 1))).indexPulse here 1 _
  case cbFdd0Xfer => exact .callback same fun _ _ => (same.cancel _ (own (slotOwner_fddXferId 0))).fddXferDone here next 0
  case cbFdd1Xfer => exact .callback same fun _ _ => (same.cancel _ (own (slotOwner_fddXferId 1))).fddXferDone here next 1
  case cbAcsiBlock =>
    exact .callback same fun _ _ =>
      (same.cancel _ (SameBut.owned slotOwner_acsiBlockId next)).acsiBlockDone here next third _ _
  case cbReserved9 => exact .dispatchEntry same fun _ _ => .next (same.cancel _ (SameBut.unowned fun _ => by decide))
  case cbReserved10 n => exact .dispatchEntry same fun _ _ => .next (same.cancel _ (SameBut.unowned fun _ => by simp; omega))
  case cbReserved12 n => exact .dispatchEntry same fun _ _ => .next (same.cancel _ (SameBut.unowned fun _ => by simp; omega))
  case cbExt n => exact leads_execCbExt n s
  all_goals first
    | exact leads_readRegister s _ _ (List.Subset.refl _)
    | exact leads_writeRegister s _ _ _ (List.Subset.refl _)

end Sys2Proof.Machine
end

section
namespace Sys2Proof.Machine

/-! ### Where a step finds its instruction -/

/-- A state with another port served and another standing of the free choices: what fetching changes. -/
def State.turn (s : State) (p : Port) (c : Choices) : State := { s with serving := p, picks := c }

/-- Port E has a command of its own to serve: neither the loop runs nor is a dispatch owed. -/
def State.Unengaged (s : State) : Prop := s.serving = .E → s.disp ≠ .scan ∧ s.acsiPending = none

/-- Where an instruction about to run comes from: the head of a port's queue, the dispatch loop, or the command block of
the device whose dispatch is owed. -/
inductive Source (i : Instr) (u : State) : Prop where
  | command (w : Word128) : (servedPort u).queue.head? = some w → decode u.par u.serving w = .ok i → u.Unengaged →
      Source i u
  | callback (c : CbId) : u.disp = .scan → c.val < u.par.ncb → i = callbackOf u.par c → Source i u
  | block (k : Dev) : u.disp ≠ .scan → u.acsiPending = some k → i = decodeAcsi (acsiBlock k (u.acsi[k]).cmd) →
      Source i u

/-- What a step finds: nothing, a word to refuse, the end of the loop, or an instruction with its source. -/
def Work.From (s : State) : Work → Prop
  | .idle => True
  | .reply t => ∃ p c, ((∃ e, t = refuse e (s.turn p c)) ∧ (s.turn p c).Unengaged) ∨
      (s.disp = .scan ∧ t = finishDispatch (s.turn p c))
  | .run i u => (∃ p c, u = s.turn p c) ∧ Source i u

theorem fetchCommand_from (s : State) (p : Port) (w : Word128)
    (hw : (servedPort { s with serving := p }).queue.head? = some w) (hu : ({ s with serving := p } : State).Unengaged) :
    (fetchCommand p w { s with serving := p }).From s := by
  unfold fetchCommand
  split
  · exact ⟨⟨p, s.picks, rfl⟩, .command w hw ‹_› hu⟩
  · exact ⟨p, s.picks, .inl ⟨⟨_, rfl⟩, hu⟩⟩

theorem fetchCallback_from (s : State) (h : s.disp = .scan) : (fetchCallback { s with serving := .E }).From s := by
  unfold fetchCallback
  split
  · rename_i c u hc
    have hlt := chooseDue_lt_ncb hc
    obtain ⟨n, rfl⟩ := chooseDue_leaves hc
    exact ⟨⟨.E, _, rfl⟩, .callback c h hlt rfl⟩
  · exact ⟨.E, s.picks, .inr ⟨h, rfl⟩⟩

theorem fetchPort_from {s : State} {p : Port} {w : Work} (h : fetchPort p s = some w) : w.From s := by
  cases p with
  | X =>
    obtain ⟨x, hx, rfl⟩ := Option.map_eq_some_iff.1 h
    exact fetchCommand_from s .X x hx nofun
  | E =>
    simp only [fetchPort, fetchE] at h
    split at h
    · cases h
      exact fetchCallback_from s ‹_›
    · rename_i hscan
      split at h
      · rename_i k hk
        cases h
        exact ⟨⟨.E, s.picks, rfl⟩, .block k hscan hk rfl⟩
      · rename_i hnone
        obtain ⟨x, hx, rfl⟩ := Option.map_eq_some_iff.1 h
        exact fetchCommand_from s .E x hx fun _ => ⟨hscan, hnone⟩

theorem Work.From.contest {s : State} {c : Choices} {w : Work} (h : w.From { s with picks := c }) : w.From s := by
  cases w with
  | idle => trivial
  | reply t => exact h
  | run i u => exact h

theorem fetch_from (s : State) : (fetch s).From s := by
  rcases fetch_cases s with ⟨_, _, h⟩ | ⟨p, w, hw, _, h⟩ | ⟨_, _, h⟩ <;> rw [h]
  · trivial
  · exact fetchPort_from hw
  · cases hw : fetchPort (nextTurn s.picks).1 { s with picks := s.picks.contest } with
    | none => trivial
    | some w => exact (fetchPort_from hw).contest

/-- What one step does, with the source of the instruction that it runs. -/
theorem step_from {s t : State} (h : step s = .next t) :
    t = s ∨ ∃ p c, ((∃ e, t = refuse e (s.turn p c)) ∧ (s.turn p c).Unengaged) ∨
      (s.disp = .scan ∧ t = finishDispatch (s.turn p c)) ∨
      ∃ i, fetch s = .run i (s.turn p c) ∧ Source i (s.turn p c) ∧ exec i (s.turn p c) = .next t := by
  have hf := fetch_from s
  unfold step at h
  split at h <;> rename_i hw <;> rw [hw] at hf
  · cases h
    exact .inl rfl
  · cases h
    obtain ⟨p, c, h | h⟩ := hf
    · exact .inr ⟨p, c, .inl h⟩
    · exact .inr ⟨p, c, .inr (.inl h)⟩
  · obtain ⟨⟨p, c, rfl⟩, hs⟩ := hf
    exact .inr ⟨p, c, .inr (.inr ⟨_, hw, hs, h⟩)⟩

theorem Source.legal {i : Instr} {u : State} (h : Source i u) (hp : u.par.Ok) : Legal i u := by
  cases h with
  | command w _ hd _ => exact decode_legal hp hd
  | callback c _ hc hi => exact hi ▸ callbackOf_legal hp hc
  | block k _ hk hi => exact hi ▸ decodeAcsi_legal hp (by rw [acsiBlock_device]; exact hk)

/-- A property that every step keeps: one blind to the ports and the dispatcher that holds after a boot and that every
legal instruction keeps. -/
theorem step_keeps {P : State → Prop} (hP : Blind P) (hturn : ∀ u p c, P u → P (State.turn u p c))
    (hidle : ∀ u, P u → P { u with disp := .idle }) (hboot : ∀ p : Params, p.Ok → P (.cold p))
    (hcold : ∀ u, P (.cold u.par) → P (coldBoot u))
    (hexec : ∀ i u, i ≠ .reset → Legal i u → Source i u → P u → Leads P (exec i u))
    {s t : State} (hp : s.par.Ok) (hs : P s) (h : step s = .next t) : P t := by
  rcases step_from h with rfl | ⟨p, c, ⟨⟨e, rfl⟩, _⟩ | ⟨_, rfl⟩ | ⟨i, _, hsrc, he⟩⟩
  · exact hs
  · exact hP.answer _ (hturn s p c hs)
  · exact hP.answer _ (hidle _ (hturn s p c hs))
  · by_cases hi : i = .reset
    · subst hi
      cases he
      exact hP.answer _ (hcold _ (hboot _ hp))
    · exact hexec i _ hi (hsrc.legal hp) hsrc (hturn s p c hs) t he

/-! ### The word behind an instruction -/

/-- The operation (30_encoding.md R105) whose word an instruction comes from; callbacks and command blocks have none. -/
def operationOf : Instr → Option Op
  | .nop => some .nop
  | .reset => some .reset
  | .advance _ => some .advance
  | .schedule _ _ _ => some .schedule
  | .cancel _ => some .cancel
  | .fireAck _ => some .fireAck
  | .agQuery _ => some .agQuery
  | .cbCreate _ _ => some .cbCreate
  | .cbDestroy _ => some .cbDestroy
  | .cbReset _ => some .cbReset
  | .cbAddbyte _ _ => some .cbAddbyte
  | .cbAddbytes _ _ _ => some .cbAddbytes
  | .cbReadbyte _ => some .cbReadbyte
  | .cbNextbyte _ => some .cbNextbyte
  | .cbArebytes _ => some .cbArebytes
  | .cbCount _ => some .cbCount
  | .aciaRxbyte _ _ _ => some .aciaRxbyte
  | .fddMount _ _ _ _ => some .fddMount
  | .fddUnmount _ => some .fddUnmount
  | .fddMotor _ _ _ => some .fddMotor
  | .fddStep _ _ _ => some .fddStep
  | .fddRead _ _ _ => some .fddRead
  | .fddWrite _ _ _ => some .fddWrite
  | .fddConv _ _ => some .fddConv
  | .acsiAttach _ _ _ => some .acsiAttach
  | .acsiDetach _ => some .acsiDetach
  | .regWr _ _ _ _ | .regWrEngineCfg _ _ | .regWrAcia0Cr _ _ | .regWrAcia0Tdr _ _ | .regWrAcia1Cr _ _
  | .regWrAcia1Tdr _ _ | .regWrDmaMcr _ _ | .regWrDmaSct _ _ | .regWrDmaAddr _ _ | .regWrFddCpb _ _ _
  | .regWrAcsibusByte _ _ => some .regWr
  | .acsiReady _ _ _ _ | .acsiRequestSense _ _ _ _ | .acsiFormat _ _ _ _ | .acsiRead _ _ _ _ | .acsiWrite _ _ _ _
  | .acsiSeek _ _ _ _ | .acsiInquiry _ _ _ _ | .acsiModeSelect _ _ _ _ | .acsiInvalid _ _ _ _ _ => none
  | .cbAcia0Tx | .cbAcia0Rx | .cbAcia1Tx | .cbAcia1Rx | .cbFdd0Index | .cbFdd1Index | .cbFdd0Xfer | .cbFdd1Xfer
  | .cbAcsiBlock | .cbReserved9 | .cbReserved10 _ | .cbReserved12 _ | .cbExt _ => none
  | _ => some .regRd

/-- The device whose command block an instruction is (30_encoding.md R119). -/
def deviceOf : Instr → Option Dev
  | .acsiReady k _ _ _ | .acsiRequestSense k _ _ _ | .acsiFormat k _ _ _ | .acsiRead k _ _ _ | .acsiWrite k _ _ _
  | .acsiSeek k _ _ _ | .acsiInquiry k _ _ _ | .acsiModeSelect k _ _ _ | .acsiInvalid k _ _ _ _ => some k
  | _ => none

theorem readInstr_operation (r : ReadReg) (now : Clock) : operationOf (readInstr r now) = some .regRd := by
  unfold readInstr
  split <;> (try split) <;> (try split) <;> rfl

theorem writeInstr_operation (r : WriteReg) (v : BitVec 32) (now : Clock) :
    operationOf (writeInstr r v now) = some .regWr := by
  unfold writeInstr
  split <;> (try split) <;> rfl

theorem decodeRegRd_operation (p : Params) (unit : BitVec 8) (reg : BitVec 16) (now : Clock) :
    operationOf (decodeRegRd p unit reg now) = some .regRd := by
  unfold decodeRegRd
  split
  · exact readInstr_operation _ _
  · rfl

theorem decodeRegWr_operation {p : Params} {unit : BitVec 8} {reg : BitVec 16} {v : BitVec 32} {now : Clock} {i : Instr}
    (h : decodeRegWr p unit reg v now = .ok i) : operationOf i = some .regWr := by
  unfold decodeRegWr at h
  split at h
  · obtain ⟨_, rfl⟩ := (ifClear_ok _ _ _).1 h
    exact writeInstr_operation _ _ _
  · cases h
    rfl

/-- A decoded instruction comes from its word's operation. -/
theorem build_operation {p : Params} {op : Op} {c : Cmd} {i : Instr} (h : build p op c = .ok i) :
    operationOf i = some op := by
  cases op
  case regWr =>
    simp only [build] at h
    split at h
    · exact decodeRegWr_operation h
    · cases h
  all_goals
    obtain ⟨_, rfl⟩ := (ifClear_ok _ _ _).1 h
  case regRd => exact decodeRegRd_operation _ _ _ _
  all_goals rfl

theorem decode_operation {p : Params} {port : Port} {w : Word128} {i : Instr} (h : decode p port w = .ok i) :
    ∃ op, opOf (Cmd.ofWord w).op = some op ∧ operationOf i = some op ∧ (port = .X → op.onPortX = true) := by
  unfold decode decodeCmd at h
  split at h
  · cases h
  · rename_i op hop
    split at h
    · cases h
    · rename_i hright
      exact ⟨op, hop, build_operation h, fun hx => by simpa [hx] using hright⟩

theorem reservedOf_operation (c : CbId) : operationOf (reservedOf c) = none := by
  unfold reservedOf
  split <;> rfl

theorem callbackOf_operation (p : Params) (c : CbId) : operationOf (callbackOf p c) = none := by
  unfold callbackOf
  split
  case h_10 =>
    split
    · exact reservedOf_operation c
    · rfl
  all_goals rfl

theorem reservedOf_device (c : CbId) : deviceOf (reservedOf c) = none := by
  unfold reservedOf
  split <;> rfl

theorem callbackOf_device (p : Params) (c : CbId) : deviceOf (callbackOf p c) = none := by
  unfold callbackOf
  split
  case h_10 =>
    split
    · exact reservedOf_device c
    · rfl
  all_goals rfl

theorem decodeAcsi_device (w : BitVec 48) :
    operationOf (decodeAcsi w) = none ∧ deviceOf (decodeAcsi w) = some (w.extractLsb' 45 3).toFin := by
  unfold decodeAcsi
  dsimp only
  split <;> exact ⟨rfl, rfl⟩

theorem deviceOf_of_operation {i : Instr} {op : Op} (h : operationOf i = some op) : deviceOf i = none := by
  cases i
  case acsiReady | acsiRequestSense | acsiFormat | acsiRead | acsiWrite | acsiSeek | acsiInquiry | acsiModeSelect
    | acsiInvalid => cases h
  all_goals rfl

/-- A command block runs only for the device whose dispatch is owed. -/
theorem Source.owed {i : Instr} {u : State} {k : Dev} (h : Source i u) (hk : deviceOf i = some k) :
    u.acsiPending = some k := by
  cases h with
  | command w _ hd _ =>
    obtain ⟨op, _, hop, _⟩ := decode_operation hd
    rw [deviceOf_of_operation hop] at hk
    cases hk
  | callback c _ _ hi =>
    rw [hi, callbackOf_device] at hk
    cases hk
  | block j _ hj hi =>
    rw [hi, (decodeAcsi_device _).2, acsiBlock_device] at hk
    exact hj.trans hk

/-! ### The instructions that touch a part -/

/-- The instruction touches the part. -/
def touches (i : Instr) (p : Part) : Bool := (partsOf i).elem p

theorem touches_iff {i : Instr} {p : Part} : touches i p = true ↔ p ∈ partsOf i := by
  unfold touches
  simp

theorem not_mem_partsOf {i : Instr} {p : Part} (h : ¬ touches i p = true) : p ∉ partsOf i := fun hp => h (touches_iff.2 hp)

/-- What schedules a block serves the bus. -/
theorem touches_bus_of_blocks {i : Instr} (h : touches i .blocks = true) : touches i .bus = true := by
  cases i
  case acsiRead | acsiWrite | cbAcsiBlock => rfl
  all_goals exact absurd h Bool.false_ne_true

end Sys2Proof.Machine
end

section
namespace Sys2Proof.Machine

/-! ### The ACIA invariant -/

/-- The two enables of an ACIA are what its control register says (10_state.md R33). -/
def Acia.EnablesOk (a : Acia) : Prop :=
  a.rxIrqEn = a.cr.getLsbD 7 ∧ a.txIrqEn = (a.cr.extractLsb' 5 2 == 1)

theorem AciaOk.enables {s : State} {i : Fin 2} (h : AciaOk s i) : (s.acia[i]).EnablesOk := ⟨h.rxIrqEn, h.txIrqEn⟩

theorem AciaOk.of_same {s t : State} {i : Fin 2} (h : AciaOk s i) (ha : t.acia[i] = s.acia[i])
    (hp : t.pins.level (aciaLine i) = s.pins.level (aciaLine i)) : AciaOk t i := by
  obtain ⟨h1, h2, h3, h4⟩ := h
  exact ⟨by rw [ha]; exact h1, by rw [ha, hp]; exact h2, by rw [ha]; exact h3, by rw [ha]; exact h4⟩

theorem aciaLine_injective {i j : Fin 2} (h : aciaLine i = aciaLine j) : i = j := by revert i j; decide

/-- `CheckIrq` leaves the other ACIA's pin alone. -/
theorem checkIrq_pin_other {i j : Fin 2} (s : State) (h : j ≠ i) :
    (checkIrq i s).pins.level (aciaLine j) = s.pins.level (aciaLine j) :=
  State.setPin_level_other _ _ _ _ fun e => h (aciaLine_injective e)

/-- Both ACIAs meet their invariant. -/
def AciasOk (s : State) : Prop := ∀ i : Fin 2, AciaOk s i

theorem aciasOk_blind : Blind AciasOk where
  answer w h i := (h i).of_same (by simp) (by simp)
  clock now h i := (h i).of_same rfl rfl
  buffers cb h i := (h i).of_same rfl rfl

/-- A change of ACIA `i` alone that leaves its enables right: what comes before a `CheckIrq` (42_acia.md R193). -/
structure Acia.Working (i : Fin 2) (s u : State) : Prop where
  own : (u.acia[i]).EnablesOk
  others : ∀ j, j ≠ i → u.acia[j] = s.acia[j] ∧ u.pins.level (aciaLine j) = s.pins.level (aciaLine j)

namespace Acia.Working
variable {i : Fin 2} {s u : State}

theorem start (hs : AciasOk s) (i : Fin 2) : Working i s s := ⟨(hs i).enables, fun _ _ => ⟨rfl, rfl⟩⟩

theorem modAcia (h : Working i s u) {f : Acia → Acia} (hf : ∀ a : Acia, a.EnablesOk → (f a).EnablesOk) :
    Working i s (u.modAcia i f) where
  own := by simpa using hf _ h.own
  others j hj := ⟨(modAcia_other u f hj).trans (h.others j hj).1, (h.others j hj).2⟩

theorem setSlots (h : Working i s u) (ag : Vector (Option AgEntry) 256) : Working i s { u with ag := ag } :=
  ⟨h.own, h.others⟩

theorem emit (h : Working i s u) (e : Event) : Working i s (u.emit e) := ⟨h.own, h.others⟩

theorem checkIrq (h : Working i s u) : Working i s (checkIrq i u) where
  own := by rw [checkIrq_self]; exact h.own
  others j hj := by
    obtain ⟨hacia, hpin⟩ := h.others j hj
    exact ⟨(checkIrq_other i j u hj).trans hacia, (checkIrq_pin_other u hj).trans hpin⟩

/-- `CheckIrq` brings the invariant back. -/
theorem aciasOk (h : Working i s u) (hs : AciasOk s) : AciasOk (Machine.checkIrq i u) := by
  intro j
  by_cases hj : j = i
  · subst hj
    have hself := checkIrq_self j u
    exact ⟨by rw [hself]; rfl, by rw [checkIrq_pin, checkIrq_irq], by rw [hself]; exact h.own.1,
      by rw [hself]; exact h.own.2⟩
  · exact (hs j).of_same (h.checkIrq.others j hj).1 (h.checkIrq.others j hj).2

theorem transmitTdr (h : Working i s u) : Working i s (transmitTdr i u) :=
  .setSlots (.modAcia (f := fun a => { a with lineBusyTx := true })
    (.checkIrq (.modAcia (f := fun a => { a with tdrs := a.tdr, tdre := true }) h fun _ ha => ha)) fun _ ha => ha) _

end Acia.Working

/-- A change of an ACIA that neither the interrupt nor the enables see. -/
theorem AciasOk.modAcia {s : State} {i : Fin 2} {f : Acia → Acia} (hs : AciasOk s)
    (hf : ∀ a, (f a).irq = a.irq ∧ (f a).irqFormula = a.irqFormula ∧ ((f a).EnablesOk ↔ a.EnablesOk)) :
    AciasOk (s.modAcia i f) := by
  intro j
  by_cases hj : j = i
  · subst hj
    have hself : (s.modAcia j f).acia[j] = f s.acia[j] := by simp
    obtain ⟨hirq, hformula, henables⟩ := hf s.acia[j]
    obtain ⟨hrx, htx⟩ := henables.2 (hs j).enables
    refine ⟨?_, ?_, ?_, ?_⟩ <;> rw [hself]
    · rw [hirq, hformula]
      exact (hs j).irq
    · rw [hirq]
      exact (hs j).pin
    · exact hrx
    · exact htx
  · exact (hs j).of_same (modAcia_other s f hj) rfl

theorem AciasOk.setSlots {s : State} (hs : AciasOk s) (ag : Vector (Option AgEntry) 256) : AciasOk { s with ag := ag } :=
  fun i => (hs i).of_same rfl rfl

/-! #### The operations -/

theorem deliver_enables {a : Acia} (h : a.EnablesOk) : a.deliver.EnablesOk := by
  unfold Acia.deliver
  split <;> exact h

section
variable {s : State} (hs : AciasOk s) (i : Fin 2)
include hs

theorem setControl_aciasOk (v : Byte) : AciasOk (setControl i v s) := by
  have control : ∀ a : Acia, (Acia.control v a).EnablesOk := fun _ => ⟨rfl, rfl⟩
  unfold setControl
  dsimp only
  split
  · refine Acia.Working.aciasOk ⟨by simpa using control _, fun j hj => ?_⟩ hs
    refine ⟨?_, checkIrq_pin_other _ hj⟩
    rw [modAcia_other _ _ hj, aciaReset, checkIrq_other _ _ _ hj]
    exact modAcia_other s _ hj
  · exact ((Acia.Working.start hs i).modAcia fun a _ => control a).aciasOk hs

theorem writeTdr_aciasOk (v : Byte) : AciasOk (writeTdr i v s) := by
  have latched := (Acia.Working.start hs i).modAcia (f := fun a => { a with tdr := v, tdre := false, lastTxWrite := s.now })
    fun _ ha => ha
  unfold writeTdr
  dsimp only
  split
  · exact latched.aciasOk hs
  · exact latched.transmitTdr.aciasOk hs

theorem readRdr_aciasOk : AciasOk (readRdr i s) :=
  ((Acia.Working.start hs i).modAcia (f := fun a => { a with rdrf := false, overrun := false }) fun _ ha => ha).aciasOk hs

theorem aciaTxDone_aciasOk : AciasOk (aciaTxDone i s) := by
  have sent := (Acia.Working.start hs i).emit (.txout i (s.acia[i]).tdrs)
  unfold aciaTxDone
  dsimp only
  split
  · exact (sent.modAcia (f := fun a => { a with lineBusyTx := false }) fun _ ha => ha).aciasOk hs
  · exact (Acia.Working.transmitTdr sent).aciasOk hs

theorem aciaRxDone_aciasOk : AciasOk (aciaRxDone i s) :=
  ((Acia.Working.start hs i).modAcia (f := Acia.deliver) fun _ => deliver_enables).aciasOk hs

theorem receiveByte_aciasOk (b : Byte) : AciasOk (receiveByte i b s) :=
  (hs.modAcia (f := fun a => { a with rdrs := b, lineBusyRx := true }) fun _ => ⟨rfl, rfl, .rfl⟩).setSlots _

end

/-! #### The step -/

theorem AciasOk.of_sameBut {ps : List Part} {L : Prop} {s t : State} (hs : AciasOk s) (h : SameBut ps L s t)
    (hp : .acias ∉ ps) : AciasOk t := fun i => (hs i).of_same (by rw [(h.acias hp).1]) ((h.acias hp).2 i)

theorem readRule_aciasOk {s : State} (hs : AciasOk s) (r : ReadReg) : Leads AciasOk (readRule r s) := by
  by_cases hr : .acias ∈ readParts r
  · cases r
    case aciaRdr i => exact .respond aciasOk_blind (readRdr_aciasOk hs i)
    all_goals simp [readParts] at hr
  · exact (leads_readRule (L := True) s r).mono fun t ht => hs.of_sameBut ht hr

theorem writeRule_aciasOk {s : State} (hs : AciasOk s) (r : WriteReg) (v : BitVec 32) :
    Leads AciasOk (writeRule r v s) := by
  by_cases hr : .acias ∈ writeParts r
  · cases r
    case aciaCr i => exact .respond aciasOk_blind (setControl_aciasOk hs i _)
    case aciaTdr i => exact .respond aciasOk_blind (writeTdr_aciasOk hs i _)
    all_goals simp [writeParts] at hr
  · exact (leads_writeRule (L := True) s r v).mono fun t ht => hs.of_sameBut ht hr

theorem readRegister_aciasOk {s : State} (hs : AciasOk s) (r : ReadReg) (now : Clock) :
    Leads AciasOk (readRegister r now s) := .timed aciasOk_blind hs fun _ h => readRule_aciasOk h r

theorem writeRegister_aciasOk {s : State} (hs : AciasOk s) (r : WriteReg) (v : BitVec 32) (now : Clock) :
    Leads AciasOk (writeRegister r v now s) := .writeRegister aciasOk_blind hs fun _ h => writeRule_aciasOk h r v

/-- Every instruction but RESET keeps the ACIA invariant. -/
theorem exec_aciasOk (i : Instr) {s : State} (hi : i ≠ .reset) (hs : AciasOk s) : Leads AciasOk (exec i s) := by
  have hb := aciasOk_blind
  by_cases hp : touches i .acias = true
  · cases i
    case regRd => exact .execRegRd hb hs fun r now => readRegister_aciasOk hs r now
    case regWr => exact .execRegWr hb hs fun r v now => writeRegister_aciasOk hs r v now
    case aciaRxbyte =>
      exact .select hb hs fun i _ _ => .timed hb hs fun _ h => by
        split
        · exact .raise hb h
        · exact .respond hb (receiveByte_aciasOk h i _)
    case cbAcia0Tx => exact .callback hs fun _ _ => aciaTxDone_aciasOk (hs.setSlots _) 0
    case cbAcia0Rx => exact .callback hs fun _ _ => aciaRxDone_aciasOk (hs.setSlots _) 0
    case cbAcia1Tx => exact .callback hs fun _ _ => aciaTxDone_aciasOk (hs.setSlots _) 1
    case cbAcia1Rx => exact .callback hs fun _ _ => aciaRxDone_aciasOk (hs.setSlots _) 1
    case regRdAcia0Rdr | regRdAcia1Rdr => exact readRegister_aciasOk hs _ _
    case regWrAcia0Cr | regWrAcia0Tdr | regWrAcia1Cr | regWrAcia1Tdr => exact writeRegister_aciasOk hs _ _ _
    all_goals exact absurd hp Bool.false_ne_true
  · exact (exec_sameBut i s hi).mono fun t ht => hs.of_sameBut ht (not_mem_partsOf hp)

theorem cold_aciasOk {p : Params} (hp : p.Ok) : AciasOk (.cold p) := by
  intro i
  have hacia : (State.cold p).acia[i] = Acia.cold p := by
    rw [State.cold_acia, Fin.getElem_fin, Vector.getElem_replicate]
  obtain ⟨hcr, htx⟩ := hp.resetAcia
  refine ⟨?_, ?_, ?_, ?_⟩ <;> rw [hacia]
  · simp [Acia.irqFormula, Acia.cold]
  · rw [State.cold_pins, hp.resetIdle.2.2]
    unfold aciaLine
    split <;> rfl
  · exact hcr.symm
  · simpa [Acia.cold] using htx

theorem step_aciasOk {s t : State} (hp : s.par.Ok) (hs : AciasOk s) (h : step s = .next t) : AciasOk t :=
  step_keeps aciasOk_blind (fun _ _ _ hu i => (hu i).of_same rfl rfl) (fun _ hu i => (hu i).of_same rfl rfl)
    (fun _ => cold_aciasOk) (fun _ hu i => (hu i).of_same rfl rfl) (fun i _ hi _ _ hu => exec_aciasOk i hi hu) hp hs h

/-- The receive enable of `CR` in place of its bit. -/
theorem AciaOk.irq_by_enables {s : State} {i : Fin 2} (h : AciaOk s i) :
    (s.acia[i]).irq = (((s.acia[i]).tdre && (s.acia[i]).txIrqEn) ||
      (((s.acia[i]).rdrf || (s.acia[i]).overrun) && (s.acia[i]).rxIrqEn)) := by
  rw [h.irq, h.rxIrqEn, Acia.irqFormula, Bool.and_comm (_ || _)]

theorem default_ok : Params.default.Ok := by constructor <;> decide

/-- Settles O30: what an instruction does to an ACIA ends in `CheckIrq`, which sets the flag and the pin to the formula. -/
theorem aciaInvariant : Obligations.AciaInvariant :=
  ⟨fun i => ⟨cold_aciasOk default_ok i, (cold_aciasOk default_ok i).irq_by_enables⟩, fun _ _ hp hs h i =>
    have ht := step_aciasOk hp (fun j => (hs j).1) h
    ⟨ht i, (ht i).irq_by_enables⟩⟩

end Sys2Proof.Machine
end

section
namespace Sys2Proof.Machine

/-! ### The drives' invariants -/

/-- A drive in its form, seen apart from the state: with the Agenda entries of its pulse and of its transfer. -/
structure Fdd.Sound (p : Params) (f : Fdd) (pulse xfer : Option AgEntry) : Prop where
  pulse : f.motor = true → pulse.map (·.fireTime) = some f.tNext
  period : f.motor = true → f.tNext = p.tadd f.tLast (f.rotation p)
  one : ¬(f.reading = true ∧ f.writing = true)
  transfer : f.busy = xfer.isSome
  disk : f.busy = true → f.disk.isSome = true
  spins : f.busy = true → f.motor = true
  cpb : f.cpb ≠ 0
  track : f.track.toNat ≤ p.fddMaxTrack.toNat
  bytes : f.reading = true → f.xfBuf.length = f.xfSize
  flags : f.disk = none → f.singleSided = false ∧ f.ghost = false

theorem driveOk_iff {s : State} {d : Fin 2} :
    DriveOk s d ↔ (s.fdd[driveSlot d]).Sound s.par s.ag[fddIndexId d] s.ag[fddXferId d] :=
  ⟨fun h => ⟨h.pulse, h.period, h.one, h.transfer, h.disk, h.spins, h.cpb, h.track, h.bytes, h.flags⟩,
    fun h => ⟨h.pulse, h.period, h.one, h.transfer, h.disk, h.spins, h.cpb, h.track, h.bytes, h.flags⟩⟩

theorem Fdd.busy_eq_false {f : Fdd} : f.busy = false ↔ f.reading = false ∧ f.writing = false := by simp [Fdd.busy]

theorem stepTrack_le {p : Params} {track : BitVec 8} (h : track.toNat ≤ p.fddMaxTrack.toNat) (dir : Bool) :
    (stepTrack p track dir).toNat ≤ p.fddMaxTrack.toNat := by
  have hmax := p.fddMaxTrack.isLt
  unfold stepTrack
  split <;> rw [BitVec.toNat_ofNat, Nat.mod_eq_of_lt (by omega)] <;> omega

namespace Fdd.Sound
variable {p : Params} {f : Fdd} {pulse xfer : Option AgEntry} (h : f.Sound p pulse xfer)
include h

theorem setCond (v : Byte) : Sound p { f with cond := v } pulse xfer := { h with }

/-- An idle drive may get another disk or none. -/
theorem exchange (hb : f.busy = false) {disk : Option Handle} {ss gh : Bool} {v : Byte}
    (hd : disk = none → ss = false ∧ gh = false) :
    Sound p { f with disk := disk, singleSided := ss, ghost := gh, cond := v } pulse xfer :=
  { h with
    disk := fun hbusy => absurd hbusy (Bool.eq_false_iff.1 hb)
    flags := hd }

/-- An idle drive may turn its motor on, the pulse being set. -/
theorem turnOn {next last : Clock} {e : AgEntry} (he : e.fireTime = next) (hn : next = p.tadd last (f.rotation p)) :
    Sound p { f with motor := true, tLast := last, tNext := next } (some e) xfer :=
  { h with
    pulse := fun _ => congrArg some he
    period := fun _ => hn
    spins := fun _ => rfl }

/-- An idle drive may turn its motor off. -/
theorem turnOff (hb : f.busy = false) : Sound p { f with motor := false } none xfer :=
  { h with
    pulse := nofun
    period := nofun
    spins := fun hbusy => absurd hbusy (Bool.eq_false_iff.1 hb) }

/-- The next pulse set. -/
theorem rearm {next last : Clock} {e : AgEntry} (he : e.fireTime = next) (hn : next = p.tadd last (f.rotation p)) :
    Sound p { f with tLast := last, tNext := next } (some e) xfer :=
  { h with
    pulse := fun _ => congrArg some he
    period := fun _ => hn }

theorem setTrack {n : BitVec 8} (hn : n.toNat ≤ p.fddMaxTrack.toNat) : Sound p { f with track := n } pulse xfer :=
  { h with track := hn }

/-- An idle turning drive with a disk may begin to read. -/
theorem beginRead (hb : f.busy = false) (hd : f.disk.isSome = true) (hm : f.motor = true) {v : Byte} {n : Sector} {size : Nat}
    {l : List Byte} {e : AgEntry} (hl : l.length = size) :
    Sound p { f with reading := true, cond := v, xfSector := n, xfSize := size, xfBuf := l } pulse (some e) :=
  { h with
    one := fun hrw => absurd hrw.2 (by simp [(busy_eq_false.1 hb).2])
    transfer := rfl
    disk := fun _ => hd
    spins := fun _ => hm
    bytes := fun _ => hl }

/-- An idle turning drive with a disk may begin to write. -/
theorem beginWrite (hb : f.busy = false) (hd : f.disk.isSome = true) (hm : f.motor = true) {v : Byte} {n : Sector}
    {size : Nat} {e : AgEntry} :
    Sound p { f with writing := true, cond := v, xfSector := n, xfSize := size } pulse (some e) := by
  obtain ⟨hr, -⟩ := busy_eq_false.1 hb
  exact { h with
    one := fun hrw => absurd hrw.1 (by simp [hr])
    transfer := by simp [Fdd.busy]
    disk := fun _ => hd
    spins := fun _ => hm
    bytes := fun hreading => absurd hreading (by simp [hr]) }

/-- The end of a read. -/
theorem endRead (hr : f.reading = true) : Sound p { f with reading := false } pulse none := by
  have hw : f.writing = false := by simpa [hr] using h.one
  exact { h with
    one := nofun
    transfer := by simp [Fdd.busy, hw]
    disk := fun hbusy => absurd hbusy (by simp [Fdd.busy, hw])
    spins := fun hbusy => absurd hbusy (by simp [Fdd.busy, hw])
    bytes := nofun }

/-- The end of a write. -/
theorem endWrite (hr : f.reading = false) : Sound p { f with writing := false } pulse none :=
  { h with
    one := nofun
    transfer := by simp [Fdd.busy, hr]
    disk := fun hbusy => absurd hbusy (by simp [Fdd.busy, hr])
    spins := fun hbusy => absurd hbusy (by simp [Fdd.busy, hr]) }

/-- A drive at rest may have its rotation changed. -/
theorem setCpb (hm : f.motor = false) {v : BitVec 32} (hv : v ≠ 0) : Sound p { f with cpb := v } pulse xfer :=
  { h with
    period := fun hmotor => absurd hmotor (Bool.eq_false_iff.1 hm)
    cpb := hv }

end Fdd.Sound

/-- Both drives meet their invariant. -/
def DrivesOk (s : State) : Prop := ∀ d : Fin 2, DriveOk s d

theorem DrivesOk.sound {s : State} (h : DrivesOk s) (d : Fin 2) :
    (s.fdd[driveSlot d]).Sound s.par s.ag[fddIndexId d] s.ag[fddXferId d] := driveOk_iff.1 (h d)

theorem DriveOk.of_same {s t : State} {d : Fin 2} (h : DriveOk s d) (hp : t.par = s.par)
    (hf : t.fdd[driveSlot d] = s.fdd[driveSlot d]) (hi : t.ag[fddIndexId d] = s.ag[fddIndexId d])
    (hx : t.ag[fddXferId d] = s.ag[fddXferId d]) : DriveOk t d := by
  rw [driveOk_iff, hp, hf, hi, hx]
  exact driveOk_iff.1 h

theorem drivesOk_blind : Blind DrivesOk where
  answer w h d := (h d).of_same (by simp) (by simp) (by simp) (by simp)
  clock now h d := (h d).of_same rfl rfl rfl rfl
  buffers cb h d := (h d).of_same rfl rfl rfl rfl

/-! #### One drive at work -/

theorem fddIndexId_ne_xferId (d j : Fin 2) : fddIndexId d ≠ fddXferId j := by revert d j; decide
theorem fddIndexId_injective {d j : Fin 2} (h : fddIndexId d = fddIndexId j) : d = j := by revert d j; decide
theorem fddXferId_injective {d j : Fin 2} (h : fddXferId d = fddXferId j) : d = j := by revert d j; decide
theorem driveSlot_injective {d j : Fin 2} (h : (driveSlot d).val = (driveSlot j).val) : d = j := Fin.ext h

/-- Only drive `d` and its two Agenda slots have changed, to what is shown. -/
structure Fdd.Working (d : Fin 2) (s u : State) (f : Fdd) (pulse xfer : Option AgEntry) : Prop where
  par : u.par = s.par
  drive : u.fdd[driveSlot d] = f
  pulse : u.ag[fddIndexId d] = pulse
  xfer : u.ag[fddXferId d] = xfer
  others : ∀ j, j ≠ d → u.fdd[driveSlot j] = s.fdd[driveSlot j] ∧ u.ag[fddIndexId j] = s.ag[fddIndexId j] ∧
    u.ag[fddXferId j] = s.ag[fddXferId j]

namespace Fdd.Working
variable {d : Fin 2} {s u t : State} {f : Fdd} {pulse xfer : Option AgEntry}

theorem start (s : State) (d : Fin 2) : Working d s s s.fdd[driveSlot d] s.ag[fddIndexId d] s.ag[fddXferId d] :=
  ⟨rfl, rfl, rfl, rfl, fun _ _ => ⟨rfl, rfl, rfl⟩⟩

variable (h : Working d s u f pulse xfer)
include h

theorem drivesOk (hs : DrivesOk s) (hf : f.Sound s.par pulse xfer) : DrivesOk u := by
  intro j
  by_cases hj : j = d
  · subst hj
    rw [driveOk_iff, h.par, h.drive, h.pulse, h.xfer]
    exact hf
  · obtain ⟨hfdd, hindex, hxfer⟩ := h.others j hj
    exact (hs j).of_same h.par hfdd hindex hxfer

/-- What touches no drive and no entry. -/
theorem leaves (hp : t.par = u.par) (hf : t.fdd = u.fdd) (ha : t.ag = u.ag) : Working d s t f pulse xfer :=
  ⟨hp.trans h.par, by rw [hf]; exact h.drive, by rw [ha]; exact h.pulse, by rw [ha]; exact h.xfer,
    by rw [hf, ha]; exact h.others⟩

theorem emit (e : Event) : Working d s (u.emit e) f pulse xfer := h.leaves (by simp) (by simp) (by simp)

theorem dmaError : Working d s (dmaError u) f pulse xfer :=
  h.leaves (by simp [Machine.dmaError]) (by simp [Machine.dmaError]) (by simp [Machine.dmaError])

theorem modFdd (g : Fdd → Fdd) : Working d s (u.modFdd (driveSlot d) g) (g f) pulse xfer where
  par := h.par
  drive := by simp [h.drive]
  pulse := h.pulse
  xfer := h.xfer
  others j hj := by
    have hne : (driveSlot d).val ≠ (driveSlot j).val := fun e => hj (driveSlot_injective e).symm
    simp only [State.modFdd_fdd, State.modFdd_ag, Fin.getElem_fin, Vector.getElem_set_ne _ _ hne]
    exact h.others j hj

theorem setPulse (x : Option AgEntry) : Working d s { u with ag := u.ag.set (fddIndexId d) x } f x xfer where
  par := h.par
  drive := h.drive
  pulse := by simp
  xfer := (ag_set_other _ _ (fddIndexId_ne_xferId d d)).trans h.xfer
  others j hj := by
    obtain ⟨hfdd, hindex, hxfer⟩ := h.others j hj
    exact ⟨hfdd, (ag_set_other _ _ fun e => hj (fddIndexId_injective e).symm).trans hindex,
      (ag_set_other _ _ (fddIndexId_ne_xferId d j)).trans hxfer⟩

theorem setXfer (x : Option AgEntry) : Working d s { u with ag := u.ag.set (fddXferId d) x } f pulse x where
  par := h.par
  drive := h.drive
  pulse := (ag_set_other _ _ (fddIndexId_ne_xferId d d).symm).trans h.pulse
  xfer := by simp
  others j hj := by
    obtain ⟨hfdd, hindex, hxfer⟩ := h.others j hj
    exact ⟨hfdd, (ag_set_other _ _ (fddIndexId_ne_xferId j d).symm).trans hindex,
      (ag_set_other _ _ fun e => hj (fddXferId_injective e).symm).trans hxfer⟩

theorem setCond (v : Byte) : Working d s (setCond d v u) { f with cond := v } pulse xfer := h.modFdd _

end Fdd.Working

/-! #### The operations -/

section
variable {s : State} (hs : DrivesOk s) (d : Fin 2)
include hs

theorem setCond_drivesOk (v : Byte) : DrivesOk (setCond d v s) :=
  ((Fdd.Working.start s d).setCond v).drivesOk hs ((hs.sound d).setCond v)

theorem motorOn_drivesOk : DrivesOk (motorOn d s) :=
  (((Fdd.Working.start s d).modFdd _).setPulse _).drivesOk hs ((hs.sound d).turnOn rfl rfl)

theorem motorOff_drivesOk (hb : (s.fdd[driveSlot d]).busy = false) : DrivesOk (motorOff d s) :=
  (((Fdd.Working.start s d).modFdd _).setPulse _).drivesOk hs ((hs.sound d).turnOff hb)

/-- The pulse re-arms at `t_next`, however far the clock has gone on (44_floppy.md R268). -/
theorem indexPulse_drivesOk (hp : s.par.Ok) (ft : Clock) : DrivesOk (indexPulse d ft (s.cancel (fddIndexId d))) :=
  ((((Fdd.Working.start s d).setPulse none).modFdd _).setPulse _).emit _ |>.drivesOk hs
    ((hs.sound d).rearm (tadd_cycles_sub hp.cw.2 _ _) rfl)

theorem stepHead_drivesOk (dir : Bool) : DrivesOk (stepHead d dir s) :=
  (((Fdd.Working.start s d).modFdd fun f => { f with track := stepTrack s.par f.track dir }).leaves
      (t := stepHead d dir s) rfl rfl rfl).drivesOk hs ((hs.sound d).setTrack (stepTrack_le (hs d).track dir))

omit hs in
/-- The body of a write's completion clears the flag of writing, whatever becomes of the bytes. -/
theorem finishWrite_working {u : State} {f : Fdd} {pulse xfer : Option AgEntry} (h : Fdd.Working d s u f pulse xfer) :
    ∃ v, Fdd.Working d s (finishWrite d u) { f with cond := v, writing := false } pulse xfer := by
  have asked := h.leaves (t := (drqOutBytes (u.fdd[driveSlot d]).xfSize u).2) (by simp) (by simp) (by simp)
  have stored : ∀ l, Fdd.Working d s (storeSector d l (drqOutBytes (u.fdd[driveSlot d]).xfSize u).2).2 f pulse xfer :=
    fun l => asked.leaves (by simp) (by simp) (by simp)
  unfold finishWrite
  dsimp only
  split
  · exact ⟨3, (asked.setCond 3).modFdd _⟩
  · split
    · exact ⟨f.cond, (stored _).modFdd _⟩
    · exact ⟨3, ((stored _).setCond 3).dmaError.modFdd _⟩

/-- The completion of a transfer clears the flag that it was for, and its entry is gone. -/
theorem fddXferDone_drivesOk : DrivesOk (fddXferDone d (s.cancel (fddXferId d))) := by
  have begun : Fdd.Working d s (s.cancel (fddXferId d)) _ _ none := (Fdd.Working.start s d).setXfer none
  unfold fddXferDone
  split
  · rename_i hr
    have delivered := begun.leaves (t := drqInAll ((s.cancel (fddXferId d)).fdd[driveSlot d]).xfBuf (s.cancel (fddXferId d)))
      (by simp) (by simp) (by simp)
    have ended := (delivered.modFdd fun f => { f with reading := false }).leaves
      (t := (finishRead d (s.cancel (fddXferId d))).setPin .disk true)
      (by simp [finishRead]) (by simp [finishRead]) (by simp [finishRead])
    exact ended.drivesOk hs ((hs.sound d).endRead hr)
  · rename_i hr
    obtain ⟨v, hw⟩ := finishWrite_working d begun
    exact (hw.leaves (by simp) (by simp) (by simp)).drivesOk hs
      (((hs.sound d).setCond v).endWrite (by simpa using hr))

end

theorem length_fitBytes (size : Nat) (l : List Byte) : (fitBytes size l).length = size := by
  simp [fitBytes]
  omega

theorem length_imgRead {h : Handle} {n : Sector} {size : Nat} {s : State} {l : List Byte}
    (hl : (imgRead h n size s).1 = some l) : l.length = size := by
  simp only [imgRead] at hl
  split at hl
  · cases hl
  · cases hl
    exact length_fitBytes _ _

theorem length_ghostRead {h : Handle} {n : Sector} {size : Nat} {s : State} {l : List Byte}
    (hl : (ghostRead h n size s).1 = some l) : l.length = size := by
  simp only [ghostRead] at hl
  split at hl
  · cases hl
  · cases hl
    exact length_fitBytes _ _

/-- A sector fetched has its size (44_floppy.md R273). -/
theorem length_fetchSector {d : Fin 2} {h : Handle} {n : Sector} {size : Nat} {s : State} {l : List Byte}
    (hl : (fetchSector d h n size s).1 = some l) : l.length = size := by
  unfold fetchSector at hl
  split at hl
  · dsimp only at hl
    split at hl
    · exact length_ghostRead hl
    · exact length_imgRead hl
  · exact length_imgRead hl

/-! #### The commands -/

section
variable {s : State} (hs : DrivesOk s)
include hs

/-- A disk put in or taken out of a slot that may be the inspection slot. -/
theorem modSlot_drivesOk {k : Fin 3} {g : Fdd → Fdd} (hk : ¬(k.val < 2 ∧ (s.fdd[k]).busy = true))
    (hg : ∀ (f : Fdd) pulse xfer, f.busy = false → f.Sound s.par pulse xfer → (g f).Sound s.par pulse xfer) :
    DrivesOk (s.modFdd k g) := by
  intro d
  by_cases hd : k = driveSlot d
  · subst hd
    have hlt : (driveSlot d).val < 2 := d.isLt
    exact ((Fdd.Working.start s d).modFdd g).drivesOk hs
      (hg _ _ _ (Bool.eq_false_iff.2 fun hbusy => hk ⟨hlt, hbusy⟩) (hs.sound d)) d
  · exact (hs d).of_same rfl (Vector.getElem_set_ne k.isLt _ fun e => hd (Fin.ext e)) rfl rfl

theorem execFddMotor_drivesOk (drive : BitVec 8) (on : Bool) (now : Clock) :
    Leads DrivesOk (execFddMotor drive on now s) := by
  have hb := drivesOk_blind
  refine .select hb hs fun d _ _ => .timed hb hs fun _ h => ?_
  dsimp only
  split
  · exact .respond hb h
  · split
    · exact .respond hb (motorOn_drivesOk h d)
    · split
      · exact .raise hb h
      · rename_i hidle
        exact .respond hb (motorOff_drivesOk h d (Bool.eq_false_iff.2 hidle))

theorem execFddStep_drivesOk (drive : BitVec 8) (dir : Bool) (now : Clock) :
    Leads DrivesOk (execFddStep drive dir now s) := by
  have hb := drivesOk_blind
  refine .select hb hs fun d _ _ => .timed hb hs fun _ h => ?_
  dsimp only
  split
  · exact .raise hb h
  · exact .respond hb (stepHead_drivesOk h d dir)

theorem execFddRead_drivesOk (drive : BitVec 8) (side : Bool) (now : Clock) :
    Leads DrivesOk (execFddRead drive side now s) := by
  have hb := drivesOk_blind
  refine .select hb hs fun d _ _ => .timed hb hs fun _ h => .atSector hb h (setCond_drivesOk h d)
    (fun _ e hu j => (hu j).of_same (by simp) (by simp) (by simp) (by simp)) fun hd n size e hdisk hbusy hmotor => ?_
  have fetched := ((Fdd.Working.start { s with now := now } d).emit e).leaves
    (t := (fetchSector d hd n size (State.emit { s with now := now } e)).2) (by simp) (by simp) (by simp)
  dsimp only
  split
  · exact .raise hb ((fetched.setCond 3).dmaError.drivesOk h ((h.sound d).setCond 3))
  · exact .respond hb (((fetched.modFdd _).setXfer _).drivesOk h
      ((h.sound d).beginRead hbusy (Option.isSome_iff_exists.2 ⟨_, hdisk⟩) hmotor (length_fetchSector ‹_›)))

theorem execFddWrite_drivesOk (drive : BitVec 8) (side : Bool) (now : Clock) :
    Leads DrivesOk (execFddWrite drive side now s) := by
  have hb := drivesOk_blind
  refine .select hb hs fun d _ _ => .timed hb hs fun _ h => .atSector hb h (setCond_drivesOk h d)
    (fun _ e hu j => (hu j).of_same (by simp) (by simp) (by simp) (by simp)) fun hd n size e hdisk hbusy hmotor => ?_
  have asked := (Fdd.Working.start { s with now := now } d).emit e
  exact .respond hb (((asked.modFdd _).setXfer _).drivesOk h
    ((h.sound d).beginWrite hbusy (Option.isSome_iff_exists.2 ⟨_, hdisk⟩) hmotor))

theorem writeCpb_drivesOk (d : Fin 2) (v : BitVec 32) : Leads DrivesOk (writeCpb d v s) := by
  have hb := drivesOk_blind
  unfold writeCpb
  split
  · exact .raise hb hs
  · split
    · exact .raise hb hs
    · rename_i hv hrest
      exact .respond hb (((Fdd.Working.start s d).modFdd _).drivesOk hs
        ((hs.sound d).setCpb (Bool.eq_false_iff.2 hrest) hv))

end

/-! #### The step -/

theorem DrivesOk.of_sameBut {ps : List Part} {L : Prop} {s t : State} (hs : DrivesOk s) (h : SameBut ps L s t) (hl : L)
    (hp : .drives ∉ ps) : DrivesOk t := fun d =>
  (hs d).of_same h.par (by rw [h.drives hp]) (h.slots hl _ _ (slotOwner_fddIndexId d) hp)
    (h.slots hl _ _ (slotOwner_fddXferId d) hp)

theorem writeRule_drivesOk {s : State} (hs : DrivesOk s) (r : WriteReg) (v : BitVec 32) :
    Leads DrivesOk (writeRule r v s) := by
  by_cases hr : .drives ∈ writeParts r
  · cases r
    case fddCpb d => exact writeCpb_drivesOk hs d v
    all_goals simp [writeParts] at hr
  · exact (leads_writeRule (L := True) s r v).mono fun t ht => hs.of_sameBut ht trivial hr

theorem writeRegister_drivesOk {s : State} (hs : DrivesOk s) (r : WriteReg) (v : BitVec 32) (now : Clock) :
    Leads DrivesOk (writeRegister r v now s) := .writeRegister drivesOk_blind hs fun _ h => writeRule_drivesOk h r v

/-- Every legal instruction but RESET keeps the drives' invariant. -/
theorem exec_drivesOk (i : Instr) {s : State} (hi : i ≠ .reset) (hl : Legal i s) (hs : DrivesOk s) :
    Leads DrivesOk (exec i s) := by
  have hb := drivesOk_blind
  by_cases hp : touches i .drives = true
  · cases i
    case regWr => exact .execRegWr hb hs fun r v now => writeRegister_drivesOk hs r v now
    case regWrFddCpb => exact writeRegister_drivesOk hs _ _ _
    case fddMount =>
      exact .select hb hs fun k _ _ => by
        split
        · exact .raise hb hs
        · exact .respond hb (modSlot_drivesOk hs ‹_› fun f _ _ hidle h => h.exchange hidle nofun)
    case fddUnmount =>
      exact .select hb hs fun k _ _ => by
        split
        · exact .raise hb hs
        · exact .respond hb (modSlot_drivesOk hs ‹_› fun f _ _ hidle h => h.exchange hidle fun _ => ⟨rfl, rfl⟩)
    case fddMotor => exact execFddMotor_drivesOk hs _ _ _
    case fddStep => exact execFddStep_drivesOk hs _ _ _
    case fddRead => exact execFddRead_drivesOk hs _ _ _
    case fddWrite => exact execFddWrite_drivesOk hs _ _ _
    case cbFdd0Index => exact .callback hs fun e _ => indexPulse_drivesOk hs 0 hl.ok e.fireTime
    case cbFdd1Index => exact .callback hs fun e _ => indexPulse_drivesOk hs 1 hl.ok e.fireTime
    case cbFdd0Xfer => exact .callback hs fun _ _ => fddXferDone_drivesOk hs 0
    case cbFdd1Xfer => exact .callback hs fun _ _ => fddXferDone_drivesOk hs 1
    all_goals exact absurd hp Bool.false_ne_true
  · exact (exec_sameBut i s hi).mono fun t ht => hs.of_sameBut ht hl (not_mem_partsOf hp)

theorem cold_fdd_slot (p : Params) (k : Fin 3) : (State.cold p).fdd[k] = Fdd.cold p := by
  rw [State.cold_fdd, Fin.getElem_fin, Vector.getElem_replicate]

/-- A drive just switched on: at rest. -/
theorem Fdd.cold_sound {p : Params} (hp : p.Ok) : (Fdd.cold p).Sound p none none := by
  obtain ⟨hmotor, hreading, hwriting, htrack⟩ := hp.resetDrive
  have hidle : (Fdd.cold p).busy = false := Fdd.busy_eq_false.2 ⟨hreading, hwriting⟩
  exact {
    pulse := fun h => absurd h (Bool.eq_false_iff.1 hmotor)
    period := fun h => absurd h (Bool.eq_false_iff.1 hmotor)
    one := fun h => absurd h.1 (Bool.eq_false_iff.1 hreading)
    transfer := hidle
    disk := fun h => absurd h (Bool.eq_false_iff.1 hidle)
    spins := fun h => absurd h (Bool.eq_false_iff.1 hidle)
    cpb := hp.cpb
    track := htrack
    bytes := fun h => absurd h (Bool.eq_false_iff.1 hreading)
    flags := hp.resetDisk }

theorem cold_drivesOk {p : Params} (hp : p.Ok) : DrivesOk (.cold p) := fun d => by
  rw [driveOk_iff, cold_fdd_slot, cold_ag_none hp, cold_ag_none hp]
  exact Fdd.cold_sound hp

theorem step_drivesOk {s t : State} (hp : s.par.Ok) (hs : DrivesOk s) (h : step s = .next t) : DrivesOk t :=
  step_keeps drivesOk_blind (fun _ _ _ hu d => (hu d).of_same rfl rfl rfl rfl)
    (fun _ hu d => (hu d).of_same rfl rfl rfl rfl) (fun _ => cold_drivesOk)
    (fun _ hu d => (hu d).of_same rfl rfl rfl rfl) (fun i _ hi hl _ hu => exec_drivesOk i hi hl hu) hp hs h

/-! ### The inspection slot -/

/-- A slot that holds only a disk and its two flags. -/
def Fdd.Inspects (p : Params) (f : Fdd) : Prop :=
  f = { Fdd.cold p with disk := f.disk, singleSided := f.singleSided, ghost := f.ghost } ∧
    (f.disk = none → f.singleSided = false ∧ f.ghost = false)

theorem inspectionOk_iff {s : State} : InspectionOk s ↔ (s.fdd[(2 : Fin 3)]).Inspects s.par :=
  ⟨fun h => ⟨h.only, h.flags⟩, fun h => ⟨h.1, h.2⟩⟩

theorem InspectionOk.of_same {s t : State} (h : InspectionOk s) (hp : t.par = s.par)
    (hf : t.fdd[(2 : Fin 3)] = s.fdd[(2 : Fin 3)]) : InspectionOk t := by
  rw [inspectionOk_iff, hp, hf]
  exact inspectionOk_iff.1 h

theorem inspectionOk_blind : Blind InspectionOk where
  answer w h := h.of_same (by simp) (by simp)
  clock now h := h.of_same rfl rfl
  buffers cb h := h.of_same rfl rfl

/-- A slot changed keeps the invariant when the inspection slot's change does. -/
theorem modSlot_inspectionOk {s : State} (hs : InspectionOk s) {k : Fin 3} {g : Fdd → Fdd}
    (hg : ∀ f : Fdd, k = 2 → f.Inspects s.par → (g f).Inspects s.par) : InspectionOk (s.modFdd k g) := by
  by_cases hk : k = 2
  · subst hk
    rw [inspectionOk_iff]
    simpa using hg _ rfl (inspectionOk_iff.1 hs)
  · exact hs.of_same rfl (Vector.getElem_set_ne k.isLt _ fun e => hk (Fin.ext e))

theorem Fdd.Inspects.mount {p : Params} {f : Fdd} (h : f.Inspects p) (hd : Handle) (ss gh : Bool) :
    (Fdd.mount hd ss gh 2 f).Inspects p := by
  refine ⟨?_, nofun⟩
  rw [h.1]
  rfl

theorem Fdd.Inspects.unmount {p : Params} {f : Fdd} (h : f.Inspects p) : (Fdd.unmount f).Inspects p := by
  refine ⟨?_, fun _ => ⟨rfl, rfl⟩⟩
  rw [h.1]
  rfl

theorem exec_inspectionOk (i : Instr) {s : State} (hi : i ≠ .reset) (hs : InspectionOk s) :
    Leads InspectionOk (exec i s) := by
  have hb := inspectionOk_blind
  by_cases hp : touches i .inspection = true
  · cases i
    case fddMount =>
      exact .select hb hs fun k _ _ => by
        split
        · exact .raise hb hs
        · exact .respond hb (modSlot_inspectionOk hs fun f hk h => hk ▸ h.mount _ _ _)
    case fddUnmount =>
      exact .select hb hs fun k _ _ => by
        split
        · exact .raise hb hs
        · exact .respond hb (modSlot_inspectionOk hs fun f _ h => h.unmount)
    all_goals exact absurd hp Bool.false_ne_true
  · exact (exec_sameBut i s hi).mono fun t ht => hs.of_same ht.par (ht.inspection (not_mem_partsOf hp))

theorem cold_inspectionOk {p : Params} (hp : p.Ok) : InspectionOk (.cold p) := by
  rw [inspectionOk_iff, cold_fdd_slot]
  exact ⟨rfl, hp.resetDisk⟩

theorem step_inspectionOk {s t : State} (hp : s.par.Ok) (hs : InspectionOk s) (h : step s = .next t) : InspectionOk t :=
  step_keeps inspectionOk_blind (fun _ _ _ hu => hu.of_same rfl rfl) (fun _ hu => hu.of_same rfl rfl)
    (fun _ => cold_inspectionOk) (fun _ hu => hu.of_same rfl rfl) (fun i _ hi _ _ hu => exec_inspectionOk i hi hu) hp hs h

/-- Settles O43: the operations change one drive at a time, and each keeps that drive's form; the inspection slot is only
mounted and unmounted. -/
theorem driveInvariant : Obligations.DriveInvariant :=
  ⟨fun _ _ hp hs h => step_drivesOk hp hs h, fun _ _ hp hs h => step_inspectionOk hp hs h⟩

end Sys2Proof.Machine
end

section
namespace Sys2Proof.Machine

/-! ### The bus invariant -/

/-- A device in its form, seen apart from the bus. -/
structure AcsiDev.Sound (a : AcsiDev) : Prop where
  absent : a.present = false → a.phase = 7
  image : a.present = a.image.isSome
  sectors : a.present = false → a.sectors = 0
  opcode : (a.cmd[0]).toNat < 32

/-- What the bus does for its owner in a phase: it waits for a byte or for a claim, it owes the dispatch, or the next block
is pending with the owner's number and blocks are left. -/
inductive OwnerAt (o : Dev) (left : Nat) : Fin 8 → Option Dev → Option AgEntry → Prop where
  | waiting (phase : Fin 8) : phase ≠ 0 → phase ≠ 6 → OwnerAt o left phase none none
  | owing : OwnerAt o left 6 (some o) none
  | moving (e : AgEntry) : 0 < left → e.param = BitVec.ofNat 32 o.val → OwnerAt o left 6 none (some e)

theorem OwnerAt.of_ok {s : State} (h : AcsiOk s) :
    OwnerAt s.acsiDev s.ax.left (s.acsi[s.acsiDev]).phase s.acsiPending s.ag[acsiBlockId] := by
  cases howed : s.acsiPending with
  | some k =>
    obtain ⟨hk, hphase, hslot⟩ := h.owed (by simp [howed])
    rw [howed] at hk
    cases hk
    rw [hphase, Option.isSome_eq_false_iff.1 hslot |> Option.isNone_iff_eq_none.1]
    exact .owing
  | none =>
    cases hslot : s.ag[acsiBlockId] with
    | some e =>
      obtain ⟨_, hphase, hleft, hparam⟩ := h.timed (by simp [hslot])
      rw [hphase]
      exact .moving e hleft (by simpa [hslot] using hparam)
    | none =>
      refine .waiting _ h.started fun hsix => ?_
      simpa [howed, hslot] using h.six hsix

/-- The bus invariant: each device in its form, all but the owner idle, the owner served. -/
theorem acsiOk_iff {s : State} {o : Dev} (ho : s.acsiDev = o) : AcsiOk s ↔ (∀ k : Dev, (s.acsi[k]).Sound) ∧
    (∀ k : Dev, k ≠ o → (s.acsi[k]).phase = 7) ∧
    OwnerAt o s.ax.left (s.acsi[o]).phase s.acsiPending s.ag[acsiBlockId] := by
  subst ho
  refine ⟨fun h => ⟨fun k => ⟨h.absent k, h.image k, h.sectors k, h.opcode k⟩, h.others, .of_ok h⟩, ?_⟩
  rintro ⟨hdev, hothers, howner⟩
  have parts : ∀ {phase pending slot}, OwnerAt s.acsiDev s.ax.left phase pending slot → phase ≠ 0 ∧
      (pending ≠ none → pending = some s.acsiDev ∧ phase = 6 ∧ slot.isSome = false) ∧
      (slot.isSome = true → pending = none ∧ phase = 6 ∧ 0 < s.ax.left ∧
        slot.map (·.param) = some (BitVec.ofNat 32 s.acsiDev.val)) ∧
      (phase = 6 → pending.isSome = true ∨ slot.isSome = true) := by
    rintro _ _ _ (⟨phase, h0, h6⟩ | _ | ⟨e, hleft, hparam⟩)
    · exact ⟨h0, nofun, nofun, fun h => absurd h h6⟩
    · exact ⟨by decide, fun _ => ⟨rfl, rfl, rfl⟩, nofun, fun _ => .inl rfl⟩
    · exact ⟨by decide, nofun, fun _ => ⟨rfl, rfl, hleft, congrArg some hparam⟩, fun _ => .inr rfl⟩
  obtain ⟨hstarted, howed, htimed, hsix⟩ := parts howner
  exact ⟨hothers, fun k => (hdev k).absent, fun k => (hdev k).image, fun k => (hdev k).sectors, fun k => (hdev k).opcode,
    hstarted, howed, htimed, hsix⟩

theorem AcsiOk.device {s : State} (h : AcsiOk s) (k : Dev) : (s.acsi[k]).Sound := ((acsiOk_iff rfl).1 h).1 k

theorem AcsiOk.of_same {s t : State} (h : AcsiOk s) (ha : t.acsi = s.acsi) (hd : t.acsiDev = s.acsiDev)
    (ho : t.acsiPending = s.acsiPending) (hx : t.ax = s.ax) (hs : t.ag[acsiBlockId] = s.ag[acsiBlockId]) : AcsiOk t := by
  rw [acsiOk_iff hd, ha, ho, hx, hs]
  exact (acsiOk_iff rfl).1 h

/-- The bus goes on to serve a device, the others being idle and as they were. -/
theorem AcsiOk.serve {s t : State} (h : AcsiOk s) {o : Dev} (ho : t.acsiDev = o)
    (hidle : ∀ j, j ≠ o → (s.acsi[j]).phase = 7) (hrest : ∀ j, j ≠ o → t.acsi[j] = s.acsi[j]) (hown : (t.acsi[o]).Sound)
    (hat : OwnerAt o t.ax.left (t.acsi[o]).phase t.acsiPending t.ag[acsiBlockId]) : AcsiOk t := by
  refine (acsiOk_iff ho).2 ⟨fun j => ?_, fun j hj => by rw [hrest j hj]; exact hidle j hj, hat⟩
  by_cases hj : j = o
  · exact hj ▸ hown
  · rw [hrest j hj]
    exact h.device j

theorem acsiOk_blind : Blind AcsiOk where
  answer w h := h.of_same (by simp) (by simp) (by simp) (by simp) (by simp)
  clock now h := h.of_same rfl rfl rfl rfl rfl
  buffers cb h := h.of_same rfl rfl rfl rfl rfl

/-! #### A device at work -/

theorem modAcsi_self (u : State) (k : Dev) (f : AcsiDev → AcsiDev) : (u.modAcsi k f).acsi[k] = f u.acsi[k] := by simp

theorem modAcsi_other (u : State) {j k : Dev} (f : AcsiDev → AcsiDev) (h : j ≠ k) :
    (u.modAcsi k f).acsi[j] = u.acsi[j] := Vector.getElem_set_ne k.isLt _ fun e => h (Fin.ext e.symm)

/-- The two devices differ at most in status, error and address. -/
structure AcsiDev.Alike (a b : AcsiDev) : Prop where
  present : a.present = b.present
  image : a.image = b.image
  sectors : a.sectors = b.sectors
  cmd : a.cmd = b.cmd
  phase : a.phase = b.phase

theorem AcsiDev.Alike.rfl {a : AcsiDev} : a.Alike a := ⟨Eq.refl _, Eq.refl _, Eq.refl _, Eq.refl _, Eq.refl _⟩

theorem AcsiDev.Alike.trans {a b c : AcsiDev} (h : a.Alike b) (g : b.Alike c) : a.Alike c :=
  ⟨h.present.trans g.present, h.image.trans g.image, h.sectors.trans g.sectors, h.cmd.trans g.cmd, h.phase.trans g.phase⟩

theorem AcsiDev.Alike.sound {a b : AcsiDev} (h : a.Alike b) (hb : b.Sound) : a.Sound :=
  ⟨by rw [h.present, h.phase]; exact hb.absent, by rw [h.present, h.image]; exact hb.image,
    by rw [h.present, h.sectors]; exact hb.sectors, by rw [h.cmd]; exact hb.opcode⟩

/-- A command at work for device `k`: of the devices only `k` has changed, in what its report and its address are; the bus
serves the same owner, and no block is pending. -/
structure AcsiDev.Working (k : Dev) (s u : State) : Prop where
  own : (u.acsi[k]).Alike s.acsi[k]
  others : ∀ j, j ≠ k → u.acsi[j] = s.acsi[j]
  owner : u.acsiDev = s.acsiDev
  pending : u.acsiPending = s.acsiPending
  slot : u.ag[acsiBlockId] = none

namespace AcsiDev.Working
variable {k : Dev} {s u t : State}

theorem start (k : Dev) (h : s.ag[acsiBlockId] = none) : Working k s s := ⟨.rfl, fun _ _ => rfl, rfl, rfl, h⟩

/-- The entry of the block callback taken out of the Agenda. -/
theorem fired (k : Dev) (s : State) : Working k s (s.cancel acsiBlockId) :=
  ⟨.rfl, fun _ _ => rfl, rfl, rfl, by simp⟩

variable (h : Working k s u)
include h

theorem leaves (ha : t.acsi = u.acsi) (hd : t.acsiDev = u.acsiDev) (ho : t.acsiPending = u.acsiPending)
    (hs : t.ag = u.ag) : Working k s t :=
  ⟨by rw [ha]; exact h.own, by rw [ha]; exact h.others, hd.trans h.owner, ho.trans h.pending, by rw [hs]; exact h.slot⟩

theorem setAx (a : AcsiXfer) : Working k s { u with ax := a } := h.leaves rfl rfl rfl rfl

theorem modAcsi {f : AcsiDev → AcsiDev} (hf : ∀ a : AcsiDev, (f a).Alike a) : Working k s (u.modAcsi k f) where
  own := by
    rw [modAcsi_self]
    exact (hf _).trans h.own
  others j hj := (modAcsi_other u f hj).trans (h.others j hj)
  owner := h.owner
  pending := h.pending
  slot := h.slot

theorem report (status error : Byte) : Working k s (acsiReport k status error u) :=
  h.modAcsi fun _ => ⟨rfl, rfl, rfl, rfl, rfl⟩

theorem blockMoved : Working k s (blockMoved k u).2 :=
  (h.setAx { u.ax with lba := u.ax.lba + 1, left := u.ax.left - 1 }).modAcsi
    (f := fun a => { a with curLba := curLbaOf (u.ax.lba + 1) }) fun _ => ⟨rfl, rfl, rfl, rfl, rfl⟩

theorem dmaError : Working k s (dmaError u) :=
  h.leaves (by simp [Machine.dmaError]) (by simp [Machine.dmaError]) (by simp [Machine.dmaError]) (by simp [Machine.dmaError])

theorem moveBlock : Working k s (moveBlock k u).2 := by
  unfold Machine.moveBlock
  split
  · have read := h.leaves (t := (readBlock k u).2) (by simp) (by simp) (by simp) (by simp)
    unfold moveIn
    split
    · exact read.dmaError.report _ _
    · exact (read.leaves (by simp) (by simp) (by simp) (by simp)).blockMoved
  · have asked := h.leaves (t := (drqOutBytes u.par.acsiBlockBytes u).2) (by simp) (by simp) (by simp) (by simp)
    unfold moveOut
    dsimp only
    split
    · exact asked.report _ _
    · split
      · exact (asked.leaves (by simp) (by simp) (by simp) (by simp)).blockMoved
      · exact (asked.leaves (by simp) (by simp) (by simp) (by simp)).dmaError.report _ _

theorem moveBlocks (n : Nat) : Working k s (moveBlocks k n u) := by
  induction n generalizing u with
  | zero => exact h
  | succ n ih =>
    unfold Machine.moveBlocks
    dsimp only
    split
    · exact ih h.moveBlock
    · exact h.moveBlock

theorem formatSectors (l : Nat) (n : Sector) : Working k s (formatSectors k l n u) := by
  induction l generalizing n u with
  | zero => exact h
  | succ l ih =>
    have written : ∀ b, Working k s (writeBlock k n b u).2 := fun b =>
      h.leaves (by simp) (by simp) (by simp) (by simp)
    unfold Machine.formatSectors
    dsimp only
    split
    · exact ih (written _) _
    · exact ((written _).report _ _).dmaError

/-- The owner's command ends: the device is idle, nothing is owed or pending. -/
theorem finish (hs : AcsiOk s) (hk : k = s.acsiDev) :
    AcsiOk { acsiFinish k u with acsiPending := none } := by
  have hself : (acsiFinish k u).acsi[k] = { u.acsi[k] with phase := 7 } := by simp [acsiFinish]
  have hsound := h.own.sound (hs.device k)
  refine hs.serve (o := k) (by simp [acsiFinish, h.owner, hk]) (by rw [hk]; exact hs.others) (fun j hj => ?_) ?_ ?_
  · simpa [acsiFinish] using (modAcsi_other u (fun a => { a with phase := 7 }) hj).trans (h.others j hj)
  · dsimp only
    rw [hself]
    exact { hsound with absent := fun _ => rfl }
  · have hs' : (acsiFinish k u).ag[acsiBlockId] = none := by simpa [acsiFinish] using h.slot
    dsimp only
    rw [hself, hs']
    exact .waiting 7 (by decide) (by decide)

/-- The owner's transfer ends, nothing being owed. -/
theorem endTransfer (hs : AcsiOk s) (hk : k = s.acsiDev) (hp : s.acsiPending = none) : AcsiOk (endTransfer k u) :=
  ((h.setAx { u.ax with left := 0 }).finish hs hk).of_same rfl rfl
    (by simpa [Machine.endTransfer, acsiFinish] using h.pending.trans hp) rfl rfl

/-- The owner's blocks are to follow: the next one is pending. -/
theorem await (hs : AcsiOk s) (hk : k = s.acsiDev) (hphase : (s.acsi[k]).phase = 6) (hleft : 0 < u.ax.left) (d : Clock) :
    AcsiOk { u.schedule acsiBlockId d (BitVec.ofNat 32 k.val) with acsiPending := none } := by
  refine hs.serve (o := k) (by simp [h.owner, hk]) (by rw [hk]; exact hs.others) h.others (h.own.sound (hs.device k)) ?_
  have hslot : (u.schedule acsiBlockId d (BitVec.ofNat 32 k.val)).ag[acsiBlockId] =
      some { fireTime := u.par.tadd u.now d, param := BitVec.ofNat 32 k.val } := by simp
  dsimp only
  rw [hslot, State.schedule_acsi, h.own.phase, hphase]
  exact .moving _ hleft rfl

end AcsiDev.Working

/-! #### The commands of a device -/

section
variable {s : State} (hs : AcsiOk s) {k : Dev} (hk : s.acsiPending = some k)
include hs hk

/-- The owed device is the owner, in phase 6, and no block is pending. -/
theorem AcsiOk.owing : k = s.acsiDev ∧ (s.acsi[k]).phase = 6 ∧ s.ag[acsiBlockId] = none := by
  obtain ⟨ho, hphase, hslot⟩ := hs.owed (by simp [hk])
  rw [hk] at ho
  cases ho
  exact ⟨rfl, hphase, Option.isNone_iff_eq_none.1 (Option.isSome_eq_false_iff.1 hslot)⟩

/-- A dispatched command that finishes (45_acsi.md R306). -/
theorem AcsiDev.Working.answered {u : State} (h : Working k s u) : Leads AcsiOk (acsiAnswer (acsiFinish k u)) := by
  obtain ⟨ho, _⟩ := hs.owing hk
  exact .respond acsiOk_blind (h.finish hs ho)

/-- The command begins. -/
theorem AcsiOk.begun : AcsiDev.Working k s (acsiBegin k s) := by
  obtain ⟨_, _, hslot⟩ := hs.owing hk
  exact (AcsiDev.Working.start k hslot).report _ _

theorem startTransfer_acsiOk (dir : Dir) (lba : BitVec 24) (count : Byte) :
    Leads AcsiOk (acsiAnswer (startTransfer k dir lba count (acsiBegin k s))) := by
  have begun := hs.begun hk
  have set := (begun.setAx { dir := dir, lba := lba.setWidth 32, left := count.toNat }).modAcsi
    (f := fun a => { a with curLba := lba }) fun _ => ⟨rfl, rfl, rfl, rfl, rfl⟩
  unfold startTransfer
  split
  · exact (begun.report _ _).answered hs hk
  · dsimp only
    split
    · exact set.answered hs hk
    · rename_i hcount
      split
      · obtain ⟨ho, hphase, _⟩ := hs.owing hk
        exact .respond acsiOk_blind (set.await hs ho hphase (Nat.pos_of_ne_zero fun h => hcount (BitVec.eq_of_toNat_eq h)) _)
      · exact ((set.moveBlocks _).setAx _).answered hs hk

end

/-! #### The callback -/

theorem blockDevice_ofNat (k : Dev) : blockDevice (BitVec.ofNat 32 k.val) = k := by revert k; decide

/-- The block callback goes on with the owner's transfer (45_acsi.md R319). -/
theorem cbAcsiBlock_acsiOk {s : State} (hs : AcsiOk s) {e : AgEntry} (he : s.ag[acsiBlockId] = some e) :
    AcsiOk (acsiBlockDone (blockDevice e.param) e.fireTime (s.cancel acsiBlockId)) := by
  obtain ⟨hpending, hphase, _, hparam⟩ := hs.timed (by simp [he])
  have hdevice : blockDevice e.param = s.acsiDev := by
    have hnumber : e.param = BitVec.ofNat 32 s.acsiDev.val := by simpa [he] using hparam
    rw [hnumber, blockDevice_ofNat]
  rw [hdevice]
  have moved := (AcsiDev.Working.fired s.acsiDev s).moveBlock
  unfold acsiBlockDone
  dsimp only
  split
  · rename_i hleft
    exact (moved.await hs rfl hphase hleft.2 _).of_same rfl rfl (moved.pending.trans hpending) rfl rfl
  · exact moved.endTransfer hs rfl hpending

/-! #### The bus byte -/

/-- A byte taken in phases 1 to 5 is one of the command's bytes after the first. -/
theorem AcsiDev.Sound.take {a : AcsiDev} (h : a.Sound) (h0 : a.phase ≠ 0) (hlt : a.phase.val < 6) (v : Byte) :
    (AcsiDev.take v a).Sound ∧ (AcsiDev.take v a).phase = a.phase + 1 := by
  have htake : AcsiDev.take v a = { a with cmd := a.cmd.set a.phase.val v hlt, phase := a.phase + 1 } := dif_pos hlt
  rw [htake]
  have hpresent : a.present ≠ false := fun habsent => by
    rw [h.absent habsent] at hlt
    exact absurd hlt (by decide)
  refine ⟨⟨fun e => absurd e hpresent, h.image, h.sectors, ?_⟩, rfl⟩
  have hne : a.phase.val ≠ 0 := fun e => h0 (Fin.ext e)
  simpa [Vector.getElem_set_ne _ _ hne] using h.opcode

theorem AcsiDev.Sound.claim {a : AcsiDev} (h : a.Sound) (hp : a.present = true) (v : Byte) :
    (AcsiDev.claim v a).Sound := by
  have hcmd : (AcsiDev.claim v a).cmd[0] = v &&& 0x1f := by simp [AcsiDev.claim]
  refine ⟨fun e => absurd (hp.symm.trans e) (by decide), h.image, fun e => absurd (hp.symm.trans e) (by decide), ?_⟩
  rw [hcmd, BitVec.toNat_and]
  exact Nat.lt_of_le_of_lt Nat.and_le_right (by decide)

/-- Outside phase 6 of the owner nothing is owed and no block is pending. -/
theorem AcsiOk.quiet {s : State} (hs : AcsiOk s) (h6 : (s.acsi[s.acsiDev]).phase ≠ 6) :
    s.acsiPending = none ∧ s.ag[acsiBlockId] = none := by
  constructor <;> by_contra hne
  · exact h6 (hs.owed hne).2.1
  · exact h6 (hs.timed (Option.isSome_iff_ne_none.2 hne)).2.1

theorem acsiBusWrite_acsiOk {s : State} (hs : AcsiOk s) (v : Byte) : Leads AcsiOk (acsiBusWrite v s) := by
  have hb := acsiOk_blind
  unfold acsiBusWrite
  dsimp only
  split
  · rename_i hlow
    have hlt : (s.acsi[s.acsiDev]).phase.val < 6 := by omega
    obtain ⟨hpending, hslot⟩ := hs.quiet fun e => by rw [e] at hlt; exact absurd hlt (by decide)
    obtain ⟨hsound, hphase⟩ := (hs.device s.acsiDev).take hs.started hlt v
    rw [← modAcsi_self s s.acsiDev (AcsiDev.take v)] at hsound hphase
    split
    · rename_i hsix
      refine .next (hs.serve (o := s.acsiDev) rfl hs.others (fun j hj => modAcsi_other s _ hj) hsound ?_)
      dsimp only
      rw [hsix, State.modAcsi_ag, hslot]
      exact .owing
    · rename_i hfew
      refine .respond hb (hs.serve (o := s.acsiDev) rfl hs.others (fun j hj => modAcsi_other s _ hj) hsound ?_)
      rw [State.modAcsi_ag, hslot, State.modAcsi_acsiPending, hpending]
      refine .waiting _ ?_ hfew
      rw [hphase]
      generalize (s.acsi[s.acsiDev]).phase = n at hlt
      revert n
      decide
  · rename_i hhigh
    split
    · exact .respond hb hs
    · rename_i hsix
      split
      · exact .respond hb hs
      · rename_i k _
        split
        · rename_i hpresent
          have hidle : ∀ j : Dev, (s.acsi[j]).phase = 7 := fun j => by
            by_cases hj : j = s.acsiDev
            · subst hj
              have hlast : ∀ n : Fin 8, ¬n.val ≤ 5 → n ≠ 6 → n = 7 := by decide
              exact hlast _ hhigh hsix
            · exact hs.others j hj
          obtain ⟨hpending, hslot⟩ := hs.quiet hsix
          have hself := modAcsi_self { s with acsiDev := k } k (AcsiDev.claim v)
          refine .respond hb (hs.serve (o := k) rfl (fun j _ => hidle j) (fun j hj => modAcsi_other _ _ hj) ?_ ?_)
          · rw [hself]
            exact (hs.device k).claim hpresent v
          · rw [hself, State.modAcsi_ag, State.modAcsi_acsiPending, hslot, hpending]
            exact .waiting 1 (by decide) (by decide)
        · exact .respond hb hs

/-! #### Attachment -/

/-- An idle device may be attached or detached. -/
theorem modAcsi_acsiOk {s : State} (hs : AcsiOk s) {k : Dev} {f : AcsiDev → AcsiDev} (hk : (s.acsi[k]).phase = 7)
    (hphase : ∀ a, (f a).phase = a.phase) (hf : ∀ a : AcsiDev, a.phase = 7 → a.Sound → (f a).Sound) :
    AcsiOk (s.modAcsi k f) := by
  obtain ⟨hsound, hothers, hat⟩ := (acsiOk_iff rfl).1 hs
  have hsame : ∀ j : Dev, ((s.modAcsi k f).acsi[j]).phase = (s.acsi[j]).phase := fun j => by
    by_cases hj : j = k
    · subst hj
      rw [modAcsi_self, hphase]
    · rw [modAcsi_other s f hj]
  refine (acsiOk_iff rfl).2 ⟨fun j => ?_, fun j hj => (hsame j).trans (hothers j hj), ?_⟩
  · by_cases hj : j = k
    · subst hj
      rw [modAcsi_self]
      exact hf _ hk (hsound j)
    · rw [modAcsi_other s f hj]
      exact hsound j
  · have := hsame (s.modAcsi k f).acsiDev
    rw [this]
    exact hat

/-! #### The step -/

theorem AcsiOk.of_sameBut {ps : List Part} {L : Prop} {s t : State} (hs : AcsiOk s) (h : SameBut ps L s t) (hl : L)
    (hp : .bus ∉ ps) (hq : .blocks ∉ ps) : AcsiOk t := by
  obtain ⟨ha, hd, ho, hx⟩ := h.bus hp
  exact hs.of_same ha hd ho hx (h.slots hl _ _ slotOwner_acsiBlockId hq)

theorem writeRule_acsiOk {s : State} (hs : AcsiOk s) (r : WriteReg) (v : BitVec 32) : Leads AcsiOk (writeRule r v s) := by
  by_cases hr : .bus ∈ writeParts r
  · cases r
    case acsibusByte => exact acsiBusWrite_acsiOk hs _
    all_goals simp [writeParts] at hr
  · exact (leads_writeRule (L := True) s r v).mono fun t ht => hs.of_sameBut ht trivial hr fun hq => by
      simpa using writeParts_subset r hq

theorem writeRegister_acsiOk {s : State} (hs : AcsiOk s) (r : WriteReg) (v : BitVec 32) (now : Clock) :
    Leads AcsiOk (writeRegister r v now s) := .writeRegister acsiOk_blind hs fun _ h => writeRule_acsiOk h r v

/-- Every legal instruction but RESET keeps the bus invariant, a command block being that of the device whose dispatch is
owed. -/
theorem exec_acsiOk (i : Instr) {s : State} (hi : i ≠ .reset) (hl : Legal i s)
    (hd : ∀ k, deviceOf i = some k → s.acsiPending = some k) (hs : AcsiOk s) : Leads AcsiOk (exec i s) := by
  have hb := acsiOk_blind
  by_cases hp : touches i .bus = true
  · cases i
    case regWr => exact .execRegWr hb hs fun r v now => writeRegister_acsiOk hs r v now
    case regWrAcsibusByte => exact writeRegister_acsiOk hs _ _ _
    case acsiAttach =>
      exact .select hb hs fun k _ _ => by
        split
        · exact .raise hb hs
        · rename_i hidle
          exact .respond hb (modAcsi_acsiOk hs (not_not.1 hidle) (fun _ => rfl) fun _ _ ha => ⟨nofun, rfl, nofun, ha.opcode⟩)
    case acsiDetach =>
      exact .select hb hs fun k _ _ => by
        split
        · exact .raise hb hs
        · rename_i hidle
          exact .respond hb (modAcsi_acsiOk hs (not_not.1 hidle) (fun _ => rfl) fun _ hphase ha =>
            ⟨fun _ => hphase, rfl, fun _ => rfl, ha.opcode⟩)
    case acsiReady k _ _ _ => exact (hs.begun (hd k rfl)).answered hs (hd k rfl)
    case acsiRequestSense k _ _ _ =>
      have hk := hd k rfl
      have begun : AcsiDev.Working k s (acsiBeginSense k s) :=
        (AcsiDev.Working.start k (hs.owing hk).2.2).modAcsi fun _ => ⟨rfl, rfl, rfl, rfl, rfl⟩
      have sent := begun.leaves
        (t := drqInAll (senseBytes (acsiBeginSense k s).par (acsiBeginSense k s).acsi[k]) (acsiBeginSense k s)) (by simp) (by simp) (by simp) (by simp)
      refine AcsiDev.Working.answered hs hk (sent.modAcsi fun _ => ?_)
      exact ⟨rfl, rfl, rfl, rfl, rfl⟩
    case acsiFormat k _ _ _ => exact ((hs.begun (hd k rfl)).formatSectors _ _).answered hs (hd k rfl)
    case acsiRead k lba count _ => exact startTransfer_acsiOk hs (hd k rfl) .read lba count
    case acsiWrite k lba count _ => exact startTransfer_acsiOk hs (hd k rfl) .write lba count
    case acsiSeek k lba count ctrl =>
      have hk := hd k rfl
      show Leads AcsiOk (execAcsiSeek k lba count ctrl s)
      unfold execAcsiSeek
      refine AcsiDev.Working.answered hs hk ?_
      split
      · exact (hs.begun hk).report _ _
      · exact (hs.begun hk).modAcsi fun _ => ⟨rfl, rfl, rfl, rfl, rfl⟩
    case acsiInquiry k _ _ _ =>
      exact ((hs.begun (hd k rfl)).leaves (by simp) (by simp) (by simp) (by simp)).answered hs (hd k rfl)
    case acsiModeSelect k _ _ _ =>
      exact ((hs.begun (hd k rfl)).leaves (by simp) (by simp) (by simp) (by simp)).answered hs (hd k rfl)
    case acsiInvalid k _ _ _ _ =>
      exact ((AcsiDev.Working.start k (hs.owing (hd k rfl)).2.2).report _ _).answered hs (hd k rfl)
    case cbAcsiBlock => exact .callback hs fun _ he => cbAcsiBlock_acsiOk hs he
    all_goals exact absurd hp Bool.false_ne_true
  · exact (exec_sameBut i s hi).mono fun t ht => hs.of_sameBut ht hl (not_mem_partsOf hp)
      (not_mem_partsOf fun hq => hp (touches_bus_of_blocks hq))

theorem cold_acsi_device (p : Params) (k : Dev) : (State.cold p).acsi[k] = AcsiDev.cold p := by
  rw [State.cold_acsi, Fin.getElem_fin, Vector.getElem_replicate]

theorem cold_acsiOk {p : Params} (hp : p.Ok) : AcsiOk (.cold p) := by
  obtain ⟨hpresent, himage, hsectors, hcmd, _⟩ := hp.resetAcsi
  refine (acsiOk_iff rfl).2 ⟨fun k => ?_, fun k _ => ?_, ?_⟩ <;> rw [cold_acsi_device]
  · exact ⟨fun _ => rfl, by simp [AcsiDev.cold, hpresent, himage], fun _ => hsectors, hcmd⟩
  · rfl
  · rw [cold_ag_none hp]
    exact .waiting 7 (by decide) (by decide)

theorem step_acsiOk {s t : State} (hp : s.par.Ok) (hs : AcsiOk s) (h : step s = .next t) : AcsiOk t :=
  step_keeps acsiOk_blind (fun _ _ _ hu => hu.of_same rfl rfl rfl rfl rfl) (fun _ hu => hu.of_same rfl rfl rfl rfl rfl)
    (fun _ => cold_acsiOk) (fun _ hu => hu.of_same rfl rfl rfl rfl rfl)
    (fun i _ hi hl hsrc hu => exec_acsiOk i hi hl (fun _ hk => hsrc.owed hk) hu) hp hs h

/-- Settles O54: what runs for a device runs for the owner, and leaves it waiting, owing or moving blocks. -/
theorem acsiInvariant : Obligations.AcsiInvariant := fun _ _ hp hs h => step_acsiOk hp hs h

end Sys2Proof.Machine
end

section
namespace Sys2Proof.Machine

/-! ### The dispatcher's form -/

/-- What waits for an acknowledge is an external identity. -/
def AwaitsExternal (s : State) : Prop :=
  s.disp = .waitAck → s.par.ncbInt ≤ s.fireCb.toNat ∧ s.fireCb.toNat < s.par.ncb

/-- Port E may be answered: no loop runs and no dispatch is owed. -/
structure AtRest (s : State) : Prop where
  scan : s.disp ≠ .scan
  owed : s.acsiPending = none
  external : AwaitsExternal s

theorem AtRest.dispatchOk {s : State} (h : AtRest s) : DispatchOk s :=
  ⟨fun hs => absurd hs h.scan, fun ho => absurd h.owed ho, h.external⟩

theorem AtRest.of_same {s t : State} (h : AtRest s) (hp : t.par = s.par) (hd : t.disp = s.disp)
    (ho : t.acsiPending = s.acsiPending) (hf : t.fireCb = s.fireCb) : AtRest t := by
  obtain ⟨h1, h2, h3⟩ := h
  exact ⟨by rw [hd]; exact h1, ho.trans h2, by unfold AwaitsExternal; rw [hp, hd, hf]; exact h3⟩

theorem atRest_blind : Blind AtRest where
  answer w h := h.of_same (by simp) (by simp) (by simp) (by simp)
  clock now h := h.of_same rfl rfl rfl rfl
  buffers cb h := h.of_same rfl rfl rfl rfl

theorem headOp_congr {s t : State} (h : t.portE = s.portE) : headOp t = headOp s := by
  unfold headOp
  rw [h]

/-- Nothing that the dispatcher's form is about has changed. -/
structure Undisturbed (s t : State) : Prop where
  par : t.par = s.par
  disp : t.disp = s.disp
  owed : t.acsiPending = s.acsiPending
  fireCb : t.fireCb = s.fireCb
  portE : t.portE = s.portE

theorem DispatchOk.undisturbed {s t : State} (h : DispatchOk s) (ht : Undisturbed s t) : DispatchOk t := by
  obtain ⟨hp, hd, ho, hf, he⟩ := ht
  refine ⟨?_, ?_, ?_⟩
  · rw [hd, headOp_congr he]
    exact h.scan
  · rw [ho, headOp_congr he]
    exact h.owed
  · rw [hp, hd, hf]
    exact h.external

/-- While the loop runs no dispatch is owed: the two have different words at the head of port E. -/
theorem DispatchOk.unowed {s : State} (h : DispatchOk s) (hs : s.disp = .scan) : s.acsiPending = none := by
  by_contra ho
  have howed := h.owed ho
  rcases h.scan hs with e | e <;> rw [howed] at e <;> cases e

theorem DispatchOk.atRest {s : State} (h : DispatchOk s) (hd : s.disp ≠ .scan) (ho : s.acsiPending = none) : AtRest s :=
  ⟨hd, ho, h.external⟩

/-! #### Commands of port X -/

/-- Port X is served, and port E is as it was. -/
structure OnX (s t : State) : Prop where
  serving : t.serving = .X
  portE : t.portE = s.portE

theorem onX_blind (s : State) : Blind (OnX s) where
  answer w h := by
    obtain ⟨hx, he⟩ := h
    rw [State.answer_X _ _ hx]
    exact ⟨hx, he⟩
  clock now h := ⟨h.serving, h.portE⟩
  buffers cb h := ⟨h.serving, h.portE⟩

theorem partsOf_onPortX {i : Instr} {op : Op} (hi : operationOf i = some op) (hx : op.onPortX = true) : partsOf i = [] := by
  cases i
  case nop | cbCreate | cbDestroy | cbReset | cbAddbyte | cbAddbytes | cbReadbyte | cbNextbyte | cbArebytes | cbCount => rfl
  all_goals cases hi <;> cases hx

theorem exec_onX {i : Instr} {op : Op} (hi : operationOf i = some op) (hx : op.onPortX = true) {s : State}
    (hs : s.serving = .X) : Leads (OnX s) (exec i s) := by
  have hb := onX_blind s
  have same : OnX s s := ⟨hs, rfl⟩
  cases i
  case nop => exact .respond hb same
  case cbCreate =>
    exact .select hb same fun _ _ _ => by
      split
      · exact .raise hb same
      · exact .critical hb same
  case cbDestroy => exact .select hb same fun _ _ _ => .critical hb same
  case cbReset => exact .select hb same fun _ _ _ => .critical hb same
  case cbAddbytes =>
    exact .select hb same fun _ _ _ => by
      split
      · exact .raise hb same
      · exact .critical hb same
  case cbAddbyte | cbReadbyte | cbNextbyte | cbArebytes | cbCount => exact .onBuffer hb same
  all_goals cases hi <;> cases hx

theorem exec_dispatchOk_onX {i : Instr} {op : Op} (hi : operationOf i = some op) (hx : op.onPortX = true) {s : State}
    (hs : s.serving = .X) (h : DispatchOk s) : Leads DispatchOk (exec i s) := by
  intro t ht
  have hne : i ≠ .reset := by
    rintro rfl
    cases hi
    cases hx
  have same := exec_sameBut i s hne t ht
  rw [partsOf_onPortX hi hx] at same
  obtain ⟨hd, hf⟩ := same.loop List.not_mem_nil
  exact h.undisturbed ⟨same.par, hd, (same.bus List.not_mem_nil).2.2.1, hf, (exec_onX hi hx hs t ht).portE⟩

/-! #### Commands of port E -/

theorem AtRest.of_sameBut {ps : List Part} {L : Prop} {s t : State} (hs : AtRest s) (h : SameBut ps L s t)
    (hp : .bus ∉ ps) (hl : .loop ∉ ps) : AtRest t :=
  hs.of_same h.par (h.loop hl).1 (h.bus hp).2.2.1 (h.loop hl).2

section
variable {s : State} (hs : AtRest s)
include hs

/-- The loop begins, its command staying at the head of the port. -/
theorem AtRest.scanning {t : State} (hd : t.disp = .scan) (ho : t.acsiPending = s.acsiPending) (he : t.portE = s.portE)
    (hh : headOp s = some .advance ∨ headOp s = some .fireAck) : DispatchOk t where
  scan _ := headOp_congr he ▸ hh
  owed h := absurd (ho.trans hs.owed) h
  external h := absurd (hd.symm.trans h) (by decide)

theorem execAdvance_dispatchOk (hh : headOp s = some .advance) (now : Clock) : Leads DispatchOk (execAdvance now s) := by
  intro t ht
  unfold execAdvance at ht
  split at ht
  · rcases timed_next ht with ⟨_, rfl⟩ | ⟨_, ht⟩
    · exact (atRest_blind.answer _ hs).dispatchOk
    · cases ht
      exact hs.scanning rfl rfl rfl (.inl hh)
  · cases ht
    exact (atRest_blind.answer _ hs).dispatchOk

theorem execFireAck_dispatchOk (hh : headOp s = some .fireAck) (cb : BitVec 8) :
    Leads DispatchOk (execFireAck cb s) := by
  intro t ht
  rcases external_next ht with ⟨_, rfl⟩ | ⟨_, rfl⟩ | ⟨_, _, _, _, ht⟩
  · exact (atRest_blind.answer _ hs).dispatchOk
  · exact (atRest_blind.answer _ hs).dispatchOk
  · split at ht
    · cases ht
      exact (atRest_blind.answer _ hs).dispatchOk
    · cases ht
      exact hs.scanning rfl rfl rfl (.inr hh)

/-- The sixth byte leaves the dispatch owed and the bus write at the head of the port (45_acsi.md R303). -/
theorem acsiBusWrite_dispatchOk (hh : headOp s = some .regWr) (v : Byte) : Leads DispatchOk (acsiBusWrite v s) := by
  have answered : ∀ {u : State} {w : Word128}, u.par = s.par → u.disp = s.disp → u.acsiPending = s.acsiPending →
      u.fireCb = s.fireCb → DispatchOk (u.answer w) := fun hp hd ho hf =>
    (atRest_blind.answer _ (hs.of_same hp hd ho hf)).dispatchOk
  unfold acsiBusWrite
  dsimp only
  split
  · split
    · exact .next ⟨fun h => absurd h hs.scan, fun _ => hh, hs.external⟩
    · exact .next (answered rfl rfl rfl rfl)
  · split
    · exact .next (answered rfl rfl rfl rfl)
    · split
      · exact .next (answered rfl rfl rfl rfl)
      · split <;> exact .next (answered rfl rfl rfl rfl)

theorem writeRule_dispatchOk (hh : headOp s = some .regWr) (r : WriteReg) (v : BitVec 32) :
    Leads DispatchOk (writeRule r v s) := by
  by_cases hr : .bus ∈ writeParts r
  · cases r
    case acsibusByte => exact acsiBusWrite_dispatchOk hs hh _
    all_goals simp [writeParts] at hr
  · refine (leads_writeRule (L := True) s r v).mono fun t ht => (hs.of_sameBut ht hr fun hl => ?_).dispatchOk
    simpa using writeParts_subset r hl

theorem writeRegister_dispatchOk (hh : headOp s = some .regWr) (r : WriteReg) (v : BitVec 32) (now : Clock) :
    Leads DispatchOk (writeRegister r v now s) := by
  intro t ht
  rcases writeRegister_next ht with ⟨_, rfl⟩ | ⟨_, ht⟩
  · exact (atRest_blind.answer _ hs).dispatchOk
  · rcases timed_next ht with ⟨_, rfl⟩ | ⟨_, ht⟩
    · exact (atRest_blind.answer _ hs).dispatchOk
    · exact writeRule_dispatchOk (atRest_blind.clock now hs) hh r v t ht

theorem execRegWr_dispatchOk (hh : headOp s = some .regWr) (unit : BitVec 8) (reg : BitVec 16) (v : BitVec 32) (now : Clock) :
    Leads DispatchOk (execRegWr unit reg v now s) := by
  unfold execRegWr
  split
  · exact writeRegister_dispatchOk hs hh _ _ _
  · exact (leads_noRegister atRest_blind hs unit).mono fun _ ht => ht.dispatchOk

/-- A command of port E, its word at the head. -/
theorem exec_dispatchOk_onE {i : Instr} {op : Op} (hi : operationOf i = some op) (hh : headOp s = some op)
    (hne : i ≠ .reset) : Leads DispatchOk (exec i s) := by
  by_cases hp : (touches i .bus || touches i .loop) = true
  · cases i
    case advance =>
      cases hi
      exact execAdvance_dispatchOk hs hh _
    case fireAck =>
      cases hi
      exact execFireAck_dispatchOk hs hh _
    case regWr =>
      cases hi
      exact execRegWr_dispatchOk hs hh _ _ _ _
    case regWrAcsibusByte =>
      cases hi
      exact writeRegister_dispatchOk hs hh _ _ _
    case acsiAttach =>
      refine Leads.mono (.select atRest_blind hs fun k _ _ => ?_) fun _ ht => ht.dispatchOk
      split
      · exact .raise atRest_blind hs
      · exact .respond atRest_blind (hs.of_same rfl rfl rfl rfl)
    case acsiDetach =>
      refine Leads.mono (.select atRest_blind hs fun k _ _ => ?_) fun _ ht => ht.dispatchOk
      split
      · exact .raise atRest_blind hs
      · exact .respond atRest_blind (hs.of_same rfl rfl rfl rfl)
    case acsiReady | acsiRequestSense | acsiFormat | acsiRead | acsiWrite | acsiSeek | acsiInquiry | acsiModeSelect
      | acsiInvalid | cbAcsiBlock | cbExt => cases hi
    all_goals exact absurd hp Bool.false_ne_true
  · obtain ⟨hbus, hloop⟩ := not_or.1 (fun h => hp (Bool.or_eq_true_iff.2 h))
    exact (exec_sameBut i s hne).mono fun t ht =>
      (hs.of_sameBut ht (not_mem_partsOf hbus) (not_mem_partsOf hloop)).dispatchOk

end

/-! #### Callbacks -/

/-- The callbacks of the chips leave the dispatcher and the ports alone. -/
theorem exec_callback_undisturbed {i : Instr} (ho : operationOf i = none) (hd : deviceOf i = none)
    (he : ∀ n, i ≠ .cbExt n) (s : State) : Leads (Undisturbed s) (exec i s) := by
  have same : Undisturbed s s := ⟨rfl, rfl, rfl, rfl, rfl⟩
  cases i
  case cbExt n => exact absurd rfl (he n)
  case cbReserved9 | cbReserved10 | cbReserved12 => exact .dispatchEntry same fun _ _ => .next ⟨rfl, rfl, rfl, rfl, rfl⟩
  case cbAcia0Tx | cbAcia0Rx | cbAcia1Tx | cbAcia1Rx | cbFdd0Index | cbFdd1Index | cbFdd0Xfer | cbFdd1Xfer | cbAcsiBlock =>
    exact .callback same fun _ _ => by constructor <;> simp
  all_goals cases hd <;> cases ho

theorem extId_val {p : Params} (hp : p.Ok) {n : CbId} (hn : p.ncbInt + n.val < p.ncb) :
    (extId p n).val = p.ncbInt + n.val := by
  obtain ⟨_, _, h256⟩ := hp.identities
  exact Nat.mod_eq_of_lt (by omega)

theorem execCbExt_dispatchOk {s : State} (hs : DispatchOk s) (hscan : s.disp = .scan) {n : CbId} (hp : s.par.Ok)
    (hn : s.par.ncbInt + n.val < s.par.ncb) : Leads DispatchOk (execCbExt n s) := by
  have hid := extId_val hp hn
  have h256 := hp.identities.2.2
  refine .dispatchEntry hs fun e _ =>
    .next (atRest_blind.answer _ ⟨by simp, by simpa using hs.unowed hscan, fun _ => ?_⟩).dispatchOk
  have hval : (BitVec.ofNat 8 (extId s.par n).val).toNat = s.par.ncbInt + n.val := by
    rw [BitVec.toNat_ofNat, hid, Nat.mod_eq_of_lt (by omega)]
  simp only [State.emit_fireCb, State.emit_par, State.cancel_par, hval]
  omega

/-! #### Command blocks -/

theorem exec_block_unowed {i : Instr} {k : Dev} (hi : deviceOf i = some k) (s : State) :
    Leads (fun t => t.acsiPending = none) (exec i s) := by
  cases i
  case acsiReady | acsiRequestSense | acsiFormat | acsiRead | acsiWrite | acsiSeek | acsiInquiry | acsiModeSelect
    | acsiInvalid =>
    exact .next (by simp)
  all_goals cases hi

theorem exec_block_dispatchOk {i : Instr} {k : Dev} (hi : deviceOf i = some k) {s : State} (hs : DispatchOk s)
    (hscan : s.disp ≠ .scan) : Leads DispatchOk (exec i s) := by
  intro t ht
  have hne : i ≠ .reset := by
    rintro rfl
    cases hi
  have hloop : Part.loop ∉ partsOf i := by
    cases i
    case acsiReady | acsiRequestSense | acsiFormat | acsiRead | acsiWrite | acsiSeek | acsiInquiry | acsiModeSelect
      | acsiInvalid =>
      exact not_mem_partsOf Bool.false_ne_true
    all_goals cases hi
  have same := exec_sameBut i s hne t ht
  obtain ⟨hd, hf⟩ := same.loop hloop
  refine AtRest.dispatchOk ⟨by rwa [hd], exec_block_unowed hi s t ht, ?_⟩
  unfold AwaitsExternal
  rw [same.par, hd, hf]
  exact hs.external

/-! #### The step -/

theorem cold_atRest {p : Params} (hp : p.Ok) : AtRest (.cold p) := by
  have hidle := hp.resetIdle.2.1
  exact ⟨by simp [hidle], rfl, fun h => by simp [hidle] at h⟩

theorem exec_dispatchOk {i : Instr} {u : State} (hp : u.par.Ok) (hsrc : Source i u) (hu : DispatchOk u) :
    Leads DispatchOk (exec i u) := by
  have hl := hsrc.legal hp
  cases hsrc with
  | command w hw hd hun =>
    obtain ⟨op, hop, hi, hx⟩ := decode_operation hd
    cases hserving : u.serving with
    | X => exact exec_dispatchOk_onX hi (hx hserving) hserving hu
    | E =>
      obtain ⟨hscan, howed⟩ := hun hserving
      have hhead : headOp u = some op := by
        have hw' : u.portE.queue.head? = some w := by simpa [servedPort, hserving] using hw
        simp [headOp, hw', hop]
      by_cases hne : i = .reset
      · subst hne
        exact .next (atRest_blind.answer _ ((cold_atRest hp).of_same (t := coldBoot u) rfl rfl rfl rfl)).dispatchOk
      · exact exec_dispatchOk_onE (hu.atRest hscan howed) hi hhead hne
  | callback c hscan hc hi =>
    by_cases hext : ∃ n, i = .cbExt n
    · obtain ⟨n, hn⟩ := hext
      rw [hn]
      exact execCbExt_dispatchOk hu hscan hp (hl.host n hn)
    · exact (exec_callback_undisturbed (hi ▸ callbackOf_operation _ _) (hi ▸ callbackOf_device _ _)
        (fun n hn => hext ⟨n, hn⟩) u).mono fun _ ht => hu.undisturbed ht
  | block k hscan hk hi =>
    exact exec_block_dispatchOk (k := k) (by rw [hi, (decodeAcsi_device _).2, acsiBlock_device]) hu hscan

theorem turn_undisturbed (s : State) (p : Port) (c : Choices) : Undisturbed s (s.turn p c) := ⟨rfl, rfl, rfl, rfl, rfl⟩

theorem step_dispatchOk {s t : State} (hp : s.par.Ok) (hs : DispatchOk s) (h : step s = .next t) : DispatchOk t := by
  rcases step_from h with rfl | ⟨p, c, ⟨⟨e, rfl⟩, hun⟩ | ⟨hscan, rfl⟩ | ⟨i, _, hsrc, he⟩⟩
  · exact hs
  · have hturn := hs.undisturbed (turn_undisturbed s p c)
    cases p with
    | X => exact hturn.undisturbed (by constructor <;> simp [refuse, State.answer, State.turn])
    | E =>
      obtain ⟨hscan, howed⟩ := hun rfl
      exact (atRest_blind.answer _ (hturn.atRest hscan howed)).dispatchOk
  · exact (atRest_blind.answer (u := { s.turn p c with disp := .idle }) _ ⟨nofun, hs.unowed hscan, nofun⟩).dispatchOk
  · exact exec_dispatchOk (u := s.turn p c) hp hsrc (hs.undisturbed (turn_undisturbed s p c)) t he

/-- Settles O59: by the source of the instruction: a port X command leaves port E alone, a port E command runs only with no
loop and no dispatch, and the loop's callbacks leave the head of port E in place. -/
theorem dispatchInvariant : Obligations.DispatchInvariant := fun _ _ hp hs h => step_dispatchOk hp hs h

end Sys2Proof.Machine
end

section
namespace Sys2Proof.Machine

/-! ### The list of unread bytes -/

namespace CircBuf

@[simp] theorem length_content (c : CircBuf) : c.content.length = c.count := by simp [content]

/-- An unread byte by its distance from the write cursor. -/
theorem getElem_content {c : CircBuf} (hc : c.Ok) (h : c.cap ≠ 0) {j : Nat} (hj : j < c.content.length) :
    c.content[j] = c.store.getD (c.back (c.count - j)) none := by
  obtain ⟨h2, hrd, hwr⟩ := hc.live h
  have hcount := count_eq hc h
  have hj' : j < c.count := by simpa using hj
  have hslot : (c.rd + 1 + j) % c.cap = c.back (c.count - j) := by
    rw [back]
    split at hcount
    · rw [mod_of_lt_two_mul (by omega), mod_of_lt_two_mul (by omega)]
      split <;> split <;> omega
    · congr 1
      omega
  simp [content, hslot]

/-- A burst leaves a slot that it does not go over. -/
theorem getD_burstInto_other {cap x : Nat} (store : List (Option Byte)) (slot : Nat) (bytes : List Byte)
    (h : ∀ j < bytes.length, (slot + j) % cap ≠ x) : (burstInto cap store slot bytes).getD x none = store.getD x none := by
  induction bytes generalizing store slot with
  | nil => rfl
  | cons b bytes ih =>
    have hrest : ∀ j < bytes.length, (slot + 1 + j) % cap ≠ x := fun j hj => by
      rw [Nat.add_assoc, Nat.add_comm 1 j]
      exact h (j + 1) (Nat.succ_lt_succ hj)
    rw [burstInto, ih _ _ hrest]
    have hne : slot % cap ≠ x := h 0 (Nat.succ_pos _)
    simp [hne]

/-- A burst shorter than the store leaves each of its bytes in its slot. -/
theorem getD_burstInto {cap : Nat} (store : List (Option Byte)) (hlen : store.length = cap) (slot : Nat)
    (bytes : List Byte) (hle : bytes.length ≤ cap) {j : Nat} (hj : j < bytes.length) :
    (burstInto cap store slot bytes).getD ((slot + j) % cap) none = some bytes[j] := by
  induction bytes generalizing store slot j with
  | nil => cases hj
  | cons b bytes ih =>
    have hle' : bytes.length < cap := hle
    cases j with
    | zero =>
      have hlt : slot % cap < store.length := by
        rw [hlen]
        exact Nat.mod_lt _ (by omega)
      rw [burstInto, getD_burstInto_other]
      · simp [hlt]
      · intro i hi he
        rw [Nat.add_zero, Nat.add_assoc] at he
        have hround : 1 + i ≡ 0 [MOD cap] := Nat.ModEq.add_left_cancel' slot he
        have hge := Nat.le_of_dvd (Nat.succ_pos _) (Nat.add_comm 1 i ▸ (Nat.modEq_zero_iff_dvd.1 hround))
        omega
    | succ j =>
      have hrest := ih (store.set (slot % cap) (some b)) (by rw [List.length_set, hlen]) (slot + 1) (by omega)
        (Nat.lt_of_succ_lt_succ hj)
      rw [Nat.add_assoc, Nat.add_comm 1 j] at hrest
      simpa [burstInto] using hrest

section
variable {c : CircBuf} (hc : c.Ok) {bytes : List Byte} (hlen : bytes.length < c.cap)
include hc hlen

/-- The unread bytes and the burst are counted up to `cap - 1`. -/
theorem count_addBytes :
    (c.addBytes bytes).count = c.count + bytes.length - (c.count + bytes.length - (c.cap - 1)) := by
  have h : c.cap ≠ 0 := by omega
  obtain ⟨h2, hrd, hwr⟩ := hc.live h
  have hcount := count_eq hc h
  have hcount' := count_eq (addBytes_ok hc h bytes) h
  have hwr' : (c.addBytes bytes).wr = if c.wr + bytes.length < c.cap then c.wr + bytes.length
      else c.wr + bytes.length - c.cap := mod_of_lt_two_mul (by omega)
  have hrd' : (c.addBytes bytes).rd =
      if bytes.length > c.cap - 1 - c.count then (c.addBytes bytes).wr else c.rd := rfl
  have hcap' : (c.addBytes bytes).cap = c.cap := rfl
  rw [hcount', hcap', hrd']
  split at hcount <;> split at hwr' <;> split <;> split <;> omega

/-- Behind the new write cursor lies the burst, last byte first. -/
theorem back_addBytes_new {k : Nat} (h0 : 0 < k) (hk : k ≤ bytes.length) :
    (c.addBytes bytes).back k = (c.wr + (bytes.length - k)) % c.cap := by
  obtain ⟨h2, hrd, hwr⟩ := hc.live (by omega)
  have hback : (c.addBytes bytes).back k = ((c.wr + bytes.length) % c.cap + c.cap - k) % c.cap := rfl
  rw [hback, mod_of_lt_two_mul (x := c.wr + bytes.length) (by omega)]
  split <;> rw [mod_of_lt_two_mul (by omega), mod_of_lt_two_mul (by omega)] <;> split <;> split <;> omega

/-- Behind the burst lies what lay behind the old write cursor. -/
theorem back_addBytes_old {k : Nat} (h0 : bytes.length < k) (hk : k < c.cap) :
    (c.addBytes bytes).back k = c.back (k - bytes.length) := by
  obtain ⟨h2, hrd, hwr⟩ := hc.live (by omega)
  have hback : (c.addBytes bytes).back k = ((c.wr + bytes.length) % c.cap + c.cap - k) % c.cap := rfl
  rw [hback, back, mod_of_lt_two_mul (x := c.wr + bytes.length) (by omega)]
  split <;> rw [mod_of_lt_two_mul (by omega), mod_of_lt_two_mul (by omega)] <;> split <;> split <;> omega

/-- The burst goes over no slot that stays unread. -/
theorem store_addBytes_old {k : Nat} (h0 : 0 < k) (hk : k + bytes.length < c.cap) :
    (c.addBytes bytes).store.getD (c.back k) none = c.store.getD (c.back k) none := by
  obtain ⟨h2, hrd, hwr⟩ := hc.live (by omega)
  refine getD_burstInto_other _ _ _ fun i hi => ?_
  rw [back, mod_of_lt_two_mul (x := c.wr + i) (by omega), mod_of_lt_two_mul (by omega)]
  split <;> split <;> omega

/-- The unread bytes after a burst: the last `cap - 1` of what was unread and the burst (41_circular_buffer.md R168). -/
theorem content_addBytes :
    (c.addBytes bytes).content = (c.content ++ bytes.map some).drop (c.count + bytes.length - (c.cap - 1)) := by
  have h : c.cap ≠ 0 := by omega
  have hcount := count_addBytes hc hlen
  have hlt := count_lt h
  refine List.ext_getElem (by simp [hcount]) fun j hj hj' => ?_
  have hj0 : j < (c.addBytes bytes).count := by simpa using hj
  rw [getElem_content (addBytes_ok hc h bytes) h hj, List.getElem_drop, List.getElem_append]
  split
  · rename_i hold
    rw [length_content] at hold
    rw [getElem_content hc h, back_addBytes_old hc hlen (by omega) (by omega)]
    have hplace : (c.addBytes bytes).count - j - bytes.length =
        c.count - (c.count + bytes.length - (c.cap - 1) + j) := by omega
    rw [hplace]
    exact store_addBytes_old hc hlen (by omega) (by omega)
  · rename_i hnew
    rw [length_content] at hnew
    have hplace : bytes.length - ((c.addBytes bytes).count - j) =
        c.count + bytes.length - (c.cap - 1) + j - c.count := by omega
    rw [back_addBytes_new hc hlen (by omega) (by omega), hplace]
    exact (getD_burstInto _ hc.length _ _ hlen.le (by omega)).trans (by simp)

end

/-- The slot of the oldest unread byte is the write cursor exactly when there is none (10_state.md R31). -/
theorem next_eq_wr_iff {c : CircBuf} (hc : c.Ok) (h : c.cap ≠ 0) : c.next = c.wr ↔ c.count = 0 := by
  obtain ⟨h2, hrd, hwr⟩ := hc.live h
  have hcount := count_eq hc h
  have hnext : c.next = if c.rd + 1 < c.cap then c.rd + 1 else c.rd + 1 - c.cap := mod_of_lt_two_mul (by omega)
  split at hcount <;> split at hnext <;> omega

/-- The cursors meet exactly when `cap - 1` bytes are held (10_state.md R31). -/
theorem wr_eq_rd_iff {c : CircBuf} (hc : c.Ok) (h : c.cap ≠ 0) : c.wr = c.rd ↔ c.count = c.cap - 1 := by
  obtain ⟨h2, hrd, hwr⟩ := hc.live h
  have hcount := count_eq hc h
  split at hcount <;> omega

/-- The unread bytes are the oldest and those after it. -/
theorem content_of_unread {c : CircBuf} (hc : c.Ok) (h : c.cap ≠ 0) (hne : c.next ≠ c.wr) :
    c.content = c.store.getD c.next none :: CircBuf.content { c with rd := c.next } := by
  obtain ⟨h2, hrd, hwr⟩ := hc.live h
  have hcount := count_eq hc h
  have hcount' : ({ c with rd := c.next } : CircBuf).count =
      if c.next < c.wr then c.wr - 1 - c.next else c.wr + c.cap - 1 - c.next := count_eq (next_ok hc h) h
  have hnext : c.next = if c.rd + 1 < c.cap then c.rd + 1 else c.rd + 1 - c.cap := mod_of_lt_two_mul (by omega)
  have hmore : c.count = ({ c with rd := c.next } : CircBuf).count + 1 := by
    split at hcount <;> split at hcount' <;> split at hnext <;> omega
  simp only [content, hmore, List.range_succ_eq_map, List.map_cons, List.map_map]
  refine congrArg₂ _ rfl (List.map_congr_left fun j _ => ?_)
  simp only [Function.comp_apply, next, Nat.add_assoc, Nat.mod_add_mod, Nat.add_comm 1 j, Nat.succ_eq_add_one]

theorem oldest_of_unread {c : CircBuf} (hne : c.next ≠ c.wr) {v : Byte} (hv : c.store.getD c.next none = some v) :
    c.oldest = some v := by
  rw [oldest, if_neg hne, hv]
  rfl

theorem burstBytes_eq (burst : BitVec 96) (len : Nat) :
    burstBytes burst len = (List.range len).map fun j => burst.extractLsb' (8 * j) 8 := by
  have hfrom : ∀ n j, burstBytesFrom burst j n = (List.range' j n).map (burstByte burst) := fun n => by
    induction n with
    | zero => exact fun _ => rfl
    | succ n ih => exact fun j => by rw [burstBytesFrom, ih, List.range'_succ, List.map_cons]
  rw [burstBytes, hfrom, ← List.range_eq_range']
  rfl

end CircBuf

/-! #### The commands -/

theorem servedPort_answer (s : State) (w : Word128) : servedPort (s.answer w) = (servedPort s).give w := by
  unfold servedPort
  cases hs : s.serving <;> simp [State.answer, hs]

/-- A command on a buffer that may be used: its body runs with the flag held. -/
theorem onBuffer_live {s : State} {buf : BitVec 8} {b : BufId} {body : CircBuf → CircBuf × Word128} (hb : b.val = buf.toNat)
    (hn : b.val < s.par.nbuf) (hc : (s.cb[b]).Ok) (hcap : (s.cb[b]).cap ≠ 0) :
    onBuffer buf body s = .next (State.answer
      { s with cb := s.cb.set b { (body { s.cb[b] with mx := true }).1 with mx := false } }
      (body { s.cb[b] with mx := true }).2) := by
  rw [onBuffer, select_ok b hn hb.symm]
  simp only [critical, hc.free, Bool.false_eq_true, if_false, unlessInert, hcap]

/-- The flag is free before and after. -/
theorem CircBuf.free_again {c : CircBuf} (hc : c.Ok) : { c with mx := false } = c := by
  rw [← hc.free]

section
variable {s : State} {buf : BitVec 8} {b : BufId} (hb : b.val = buf.toNat) (hn : b.val < s.par.nbuf) (hc : (s.cb[b]).Ok)
include hb hn hc

/-- CB_ADDBYTES that its checks pass. -/
theorem exec_cbAddbytes_live {len : BitVec 16} (burst : BitVec 96) (hmax : len.toNat ≤ s.par.cbBurstMax)
    (hlen : len.toNat < (s.cb[b]).cap) :
    exec (.cbAddbytes buf len burst) s = .next (State.answer
      { s with cb := s.cb.set b ((s.cb[b]).addBytes (burstBytes burst len.toNat)) }
      (cbWord (if len.toNat > (s.cb[b]).cap - 1 - (s.cb[b]).count then 0 else OK) 0)) := by
  have hcap : (s.cb[b]).cap ≠ 0 := by omega
  have hagain := CircBuf.free_again (CircBuf.addBytes_ok hc hcap (burstBytes burst len.toNat))
  show execCbAddbytes buf len burst s = _
  rw [execCbAddbytes, select_ok b hn hb.symm, if_neg (by omega)]
  simp only [critical, hc.free, Bool.false_eq_true, if_false, unlessInert, hcap, ge_iff_le, Nat.not_le.2 hlen]
  rw [← hagain]
  rfl

/-- CB_ADDBYTE is the burst of one byte. -/
theorem exec_cbAddbyte_live (byte : Byte) (hcap : (s.cb[b]).cap ≠ 0) :
    exec (.cbAddbyte buf byte) s = .next (State.answer
      { s with cb := s.cb.set b ((s.cb[b]).addBytes [byte]) }
      (cbWord (if (s.cb[b]).wr = (s.cb[b]).rd then 0 else OK) 0)) := by
  have hagain := CircBuf.free_again (CircBuf.addBytes_ok hc hcap [byte])
  show execCbAddbyte buf byte s = _
  rw [execCbAddbyte, onBuffer_live hb hn hc hcap, ← hagain, ← CircBuf.addByte_eq_addBytes hc hcap]
  rfl

end

theorem answered_buffer (s : State) (b : BufId) (c : CircBuf) (w : Word128) :
    (State.answer { s with cb := s.cb.set b c } w).cb[b] = c := by simp

theorem answered_replies (s : State) (cb : Vector CircBuf 256) (w : Word128) :
    (servedPort (State.answer { s with cb := cb } w)).replies = (servedPort s).replies ++ [w] := by
  rw [servedPort_answer]
  rfl

/-- Settles O20: a byte added is a burst of one byte. -/
theorem addByteOnContent : Obligations.AddByteOnContent := by
  intro s buf byte b hb hn hc hcap
  have h2 := (hc.live hcap).1
  have hlen : [byte].length < (s.cb[b]).cap := by
    rw [List.length_singleton]
    omega
  have hlt := CircBuf.count_lt hcap
  refine ⟨_, exec_cbAddbyte_live hb hn hc byte hcap, ?_⟩
  rw [answered_buffer, answered_replies, CircBuf.length_content]
  refine ⟨CircBuf.addBytes_ok hc hcap _, rfl, ?_, ?_⟩
  · rw [CircBuf.content_addBytes hc hlen, List.length_singleton, List.map_singleton]
    split
    · rename_i hfull
      have hone : (s.cb[b]).count + 1 - ((s.cb[b]).cap - 1) = 1 := by omega
      rw [hone, List.drop_append_of_le_length (by rw [CircBuf.length_content]; omega), List.drop_one]
    · have hnone : (s.cb[b]).count + 1 - ((s.cb[b]).cap - 1) = 0 := by omega
      rw [hnone, List.drop_zero]
  · simp only [CircBuf.wr_eq_rd_iff hc hcap]
    rfl

/-- Settles O21: the content after a burst, in terms of the content before. -/
theorem burstOnContent : Obligations.BurstOnContent := by
  intro s buf b len burst hb hn hc hmax hlen
  have hcap : (s.cb[b]).cap ≠ 0 := by omega
  have hsize : (burstBytes burst len.toNat).length = len.toNat := length_burstBytesFrom _ _ _
  have hlt := CircBuf.count_lt hcap
  have hbytes : (burstBytes burst len.toNat).map some =
      (List.range len.toNat).map fun j => some (burst.extractLsb' (8 * j) 8) := by
    rw [CircBuf.burstBytes_eq, List.map_map]
    rfl
  have hover : (len.toNat > (s.cb[b]).cap - 1 - (s.cb[b]).count) ↔ (s.cb[b]).count + len.toNat > (s.cb[b]).cap - 1 := by
    omega
  refine ⟨_, exec_cbAddbytes_live hb hn hc burst hmax hlen, ?_⟩
  rw [answered_buffer, answered_replies, CircBuf.length_content]
  refine ⟨CircBuf.addBytes_ok hc hcap _, rfl, ?_, ?_⟩
  · rw [CircBuf.content_addBytes hc (by rw [hsize]; exact hlen), hbytes]
    dsimp only
    rw [List.length_append, List.length_map, List.length_range, CircBuf.length_content, hsize]
  · simp only [hover]
    rfl

/-- A body that leaves the buffer alone leaves the machine alone but for the answer. -/
theorem onBuffer_same {s : State} {buf : BitVec 8} {b : BufId} {body : CircBuf → CircBuf × Word128} {w : Word128}
    (hb : b.val = buf.toNat) (hn : b.val < s.par.nbuf) (hc : (s.cb[b]).Ok) (hcap : (s.cb[b]).cap ≠ 0)
    (hbody : body { s.cb[b] with mx := true } = ({ s.cb[b] with mx := true }, w)) :
    onBuffer buf body s = .next (s.answer w) := by
  have hagain := CircBuf.free_again hc
  rw [onBuffer_live hb hn hc hcap, hbody]
  dsimp only
  rw [hagain]
  simp

/-- Settles O23: the slot of the oldest byte is the write cursor exactly when the list is empty, and else holds its head. -/
theorem consumersOnContent : Obligations.ConsumersOnContent := by
  intro s buf b hb hn hc hcap
  have hlt := CircBuf.count_lt hcap
  have hempty := CircBuf.next_eq_wr_iff hc hcap
  have hlist := CircBuf.length_content s.cb[b]
  refine ⟨by omega, ?_, fun hnone => ?_, fun v q hq => ?_⟩
  · rw [hlist]
    exact onBuffer_same hb hn hc hcap rfl
  · have hnext : (s.cb[b]).next = (s.cb[b]).wr := hempty.2 (by rw [← hlist, hnone]; rfl)
    intro i hi
    simp only [List.mem_cons, List.not_mem_nil, or_false] at hi
    rcases hi with rfl | rfl | rfl
    · refine onBuffer_same hb hn hc hcap ?_
      have hold : CircBuf.oldest { s.cb[b] with mx := true } = none := if_pos hnext
      simp only [hold]
      rfl
    · exact onBuffer_same hb hn hc hcap (if_pos hnext)
    · exact onBuffer_same hb hn hc hcap (if_pos hnext)
  · have hnext : (s.cb[b]).next ≠ (s.cb[b]).wr := fun e => by
      rw [hq, hempty.1 e] at hlist
      cases hlist
    have hsplit := (CircBuf.content_of_unread hc hcap hnext).symm.trans hq
    obtain ⟨hhead, htail⟩ := List.cons.inj hsplit
    refine ⟨onBuffer_same hb hn hc hcap ?_, onBuffer_same hb hn hc hcap (if_neg hnext), ?_, htail⟩
    · have hold : CircBuf.oldest { s.cb[b] with mx := true } = some v := CircBuf.oldest_of_unread hnext hhead
      simp only [hold]
      rfl
    · show execCbNextbyte buf s = _
      have hagain := CircBuf.free_again (CircBuf.next_ok hc hcap)
      have hnext' : CircBuf.next { s.cb[b] with mx := true } ≠ (s.cb[b]).wr := hnext
      rw [execCbNextbyte, onBuffer_live hb hn hc hcap]
      simp only [if_neg hnext']
      exact congrArg (fun c : CircBuf => Host.Outcome.next (State.answer { s with cb := s.cb.set b c } (cbWord OK 0))) hagain

end Sys2Proof.Machine
end

section
namespace Sys2Proof.Machine

/-! ### The contracts of the drives -/

/-- Only the block callback and the two transfers put a block into the Agenda. -/
theorem touches_blocks {i : Instr} (h : touches i .blocks = true) : i = .cbAcsiBlock ∨ movesAcsiBytes i = true := by
  cases i
  case cbAcsiBlock => exact .inl rfl
  case acsiRead | acsiWrite => exact .inr rfl
  all_goals exact absurd h Bool.false_ne_true

/-- Only a read or a write sets a floppy transfer going, and neither starts a block. -/
theorem touches_transfers {i : Instr} (h : touches i .transfers = true) :
    (floppyTransfer i).isSome = true ∧ touches i .blocks ≠ true := by
  cases i
  case fddRead | fddWrite => exact ⟨rfl, Bool.false_ne_true⟩
  all_goals exact absurd h Bool.false_ne_true

theorem exec_cbAcsiBlock_idle {s t : State} (he : (s.ag[acsiBlockId]).isSome = false) (h : exec .cbAcsiBlock s = .next t) :
    t = s := by
  have hrun : execCbAcsiBlock s = .next t := h
  rcases dispatchEntry_next hrun with ⟨_, ht⟩ | ⟨e, hsome, _⟩
  · exact ht
  · rw [hsome] at he
    cases he

/-- Inside the contract an instruction keeps the two transfers apart: the one that starts a transfer finds no other. -/
theorem exec_oneDiskUser {producer : BufId → Port} {i : Instr} {s t : State} (hl : Legal i s) (hc : Contract producer i s)
    (hs : OneDiskUser s) (h : exec i s = .next t) : OneDiskUser t := by
  by_cases hreset : i = .reset
  · subst hreset
    cases h
    intro hblock
    have hcold : ((coldBoot s).answer (respWord 0 OK 0 0 0)).ag[acsiBlockId] = none := by
      rw [State.answer_ag]
      exact cold_ag_none hl.ok _
    rw [hcold] at hblock
    cases hblock
  · have same := exec_sameBut i s hreset t h
    intro hblock d
    by_contra hbusy
    rw [Bool.not_eq_false] at hbusy
    have entry : touches i .blocks ≠ true → (s.ag[acsiBlockId]).isSome = true := fun hno => by
      rwa [← same.slots hl _ _ slotOwner_acsiBlockId (not_mem_partsOf hno)]
    by_cases ht : touches i .transfers = true
    · obtain ⟨hfloppy, hno⟩ := touches_transfers ht
      exact Bool.eq_false_iff.1 (hc.floppyAlone hfloppy) (entry hno)
    · have hbefore := same.transfers (not_mem_partsOf ht) _ hbusy
      by_cases hb : touches i .blocks = true
      · rcases touches_blocks hb with rfl | hm
        · cases he : (s.ag[acsiBlockId]).isSome with
          | false =>
            rw [exec_cbAcsiBlock_idle he h, he] at hblock
            cases hblock
          | true => exact Bool.eq_false_iff.1 (hs he d) hbefore
        · exact Bool.eq_false_iff.1 (hc.acsiAlone hm d) hbefore
      · exact Bool.eq_false_iff.1 (hs (entry hb) d) hbefore

theorem step_oneDiskUser {producer : BufId → Port} {s t : State} (hp : s.par.Ok) (hc : AllowedStep producer s)
    (hs : OneDiskUser s) (h : step s = .next t) : OneDiskUser t := by
  have hkeep : ∀ u : State, u.ag = s.ag → u.fdd = s.fdd → OneDiskUser u := fun u ha hf => by
    unfold OneDiskUser
    rw [ha, hf]
    exact hs
  rcases step_from h with rfl | ⟨p, c, ⟨⟨e, rfl⟩, _⟩ | ⟨_, rfl⟩ | ⟨i, hw, hsrc, he⟩⟩
  · exact hs
  · exact hkeep _ (by simp [refuse, State.turn]) (by simp [refuse, State.turn])
  · exact hkeep _ (by simp [finishDispatch, State.turn]) (by simp [finishDispatch, State.turn])
  · exact exec_oneDiskUser (hsrc.legal hp) (hc _ _ hw) (hkeep (s.turn p c) rfl rfl) he

/-! #### The DMA belongs to the transfer -/

/-- A register of another unit than the DMA's. -/
theorem writeParts_of_unit {unit : BitVec 8} {reg : BitVec 16} {r : WriteReg} (hr : writeRegAt unit reg = some r)
    (hu : unit ≠ 3) : writeParts r ⊆ [.acias, .drives, .bus] := by
  have hu' : unit.toNat ≠ 3 := fun e => hu (BitVec.eq_of_toNat_eq e)
  unfold writeRegAt at hr
  split at hr <;> cases hr <;> first
    | exact absurd ‹unit.toNat = 3› hu'
    | simp [writeParts]

/-- Inside the contract only the transfer itself and the DMA's registers move the DMA while a drive transfers. -/
theorem exec_dma_of_busy {producer : BufId → Port} {i : Instr} {s t : State} {d : Fin 2} (hc : Contract producer i s)
    (hs : OneDiskUser s) (hbusy : (s.fdd[driveSlot d]).busy = true) (hi : i ∉ [Instr.reset, .cbFdd0Xfer, .cbFdd1Xfer])
    (hw : writesDma i = false) (h : exec i s = .next t) : t.dma = { s.dma with err := t.dma.err } ∧ t.mem = s.mem := by
  by_cases hp : touches i .dma = true
  · cases i
    case regWr unit reg v now =>
      have hu : unit ≠ 3 := fun e => by simp [writesDma, e] at hw
      have same := leads_execRegWr (L := True) s unit reg v now (fun r hr => writeParts_of_unit hr hu) t h
      exact same.dma (by decide)
    case cbAcsiBlock =>
      have hidle : (s.ag[acsiBlockId]).isSome = false := by
        by_contra he
        exact Bool.eq_false_iff.1 (hs (Bool.not_eq_false _ ▸ he) d) hbusy
      rw [exec_cbAcsiBlock_idle hidle h]
      exact ⟨rfl, rfl⟩
    case acsiRequestSense | acsiRead | acsiWrite | acsiInquiry | acsiModeSelect =>
      exact absurd hbusy (Bool.eq_false_iff.1 (hc.acsiAlone rfl d))
    case regWrDmaMcr | regWrDmaSct | regWrDmaAddr => cases hw
    case cbFdd0Xfer | cbFdd1Xfer => exact absurd (by simp) hi
    all_goals exact absurd hp Bool.false_ne_true
  · have hreset : i ≠ .reset := fun e => hi (by simp [e])
    exact (exec_sameBut i s hreset t h).dma (not_mem_partsOf hp)

/-! #### The settle time -/

/-- A drive's step leaves the other drive's time alone. -/
theorem execFddStep_other (s : State) {drive : BitVec 8} {d : Fin 2} (hd : d.val ≠ drive.toNat) (dir : Bool) (now : Clock) :
    Leads (fun t => t.lastStep[d] = s.lastStep[d]) (execFddStep drive dir now s) := by
  have hb : Blind fun t : State => t.lastStep[d] = s.lastStep[d] :=
    { answer := fun _ h => by simpa using h
      clock := fun _ h => h
      buffers := fun _ h => h }
  refine .select hb rfl fun k hk _ => .timed hb rfl fun _ _ => ?_
  dsimp only
  split
  · exact .raise hb rfl
  · refine .respond hb (Vector.getElem_set_ne k.isLt _ fun e => hd ?_)
    omega

/-- The time of a drive's last step and the parameters stay while neither that drive steps nor RESET runs. -/
theorem exec_lastStep {i : Instr} {s t : State} {drive : BitVec 8} {d : Fin 2} (hd : d.val = drive.toNat) (hi : i ≠ .reset)
    (hstep : ∀ dir n, i ≠ .fddStep drive dir n) (h : exec i s = .next t) :
    t.lastStep[d] = s.lastStep[d] ∧ t.par = s.par := by
  have same := exec_sameBut i s hi t h
  refine ⟨?_, same.par⟩
  by_cases hp : touches i .steps = true
  · cases i
    case fddStep drive' dir n =>
      have hne : d.val ≠ drive'.toNat := fun e => hstep dir n (by rw [BitVec.eq_of_toNat_eq (e.symm.trans hd)])
      exact execFddStep_other s hne dir n t h
    all_goals exact absurd hp Bool.false_ne_true
  · rw [same.steps (not_mem_partsOf hp)]

theorem runAll_lastStep {drive : BitVec 8} {d : Fin 2} (hd : d.val = drive.toNat) {between : List Instr}
    (hb : ∀ j ∈ between, j ≠ .reset ∧ ∀ dir n, j ≠ .fddStep drive dir n) {s u : State} (h : runAll between s = some u) :
    u.lastStep[d] = s.lastStep[d] ∧ u.par = s.par := by
  induction between generalizing s with
  | nil =>
    cases h
    exact ⟨rfl, rfl⟩
  | cons j rest ih =>
    simp only [runAll] at h
    split at h
    · rename_i t ht
      obtain ⟨hreset, hstep⟩ := hb j List.mem_cons_self
      obtain ⟨hlast, hpar⟩ := exec_lastStep hd hreset hstep ht
      obtain ⟨hlast', hpar'⟩ := ih (fun j hj => hb j (List.mem_cons_of_mem _ hj)) h
      exact ⟨hlast'.trans hlast, hpar'.trans hpar⟩
    all_goals cases h

/-- An accepted step is noted. -/
theorem exec_fddStep_lastStep {s t : State} {drive : BitVec 8} {d : Fin 2} {dir : Bool} {n : Clock} (hd : d.val = drive.toNat)
    (hbusy : (s.fdd[driveSlot d]).busy = false) (hn : 0 ≤ s.par.sdiff n s.now) (h : exec (.fddStep drive dir n) s = .next t) :
    t.lastStep[d] = some n ∧ t.par = s.par := by
  have hrun : execFddStep drive dir n s = .next t := h
  rw [execFddStep, select_ok d d.isLt hd.symm, timed_ok hn, if_neg (by simpa using hbusy)] at hrun
  cases hrun
  simp [stepHead]

/-- Settles O44: what starts a transfer finds no other in flight, what moves the DMA is the transfer in flight, and the time
of the last step stands until the next. -/
theorem diskContract : Obligations.DiskContract := by
  refine ⟨fun _ _ _ hp hc hs h => step_oneDiskUser hp hc hs h,
    fun _ _ _ _ _ hc hs hbusy hi hw h => exec_dma_of_busy hc hs hbusy hi hw h, ?_⟩
  intro producer s u drive d dir side n1 n2 between settle hd hsettle hbusy hn hbetween hrun i hi hc hn2
  simp only [runAll] at hrun
  split at hrun
  · rename_i t ht
    obtain ⟨hlast, hpar⟩ := exec_fddStep_lastStep hd hbusy hn ht
    obtain ⟨hlast', hpar'⟩ := runAll_lastStep hd hbetween hrun
    have hi' : floppyTransfer i = some (drive, n2) := by
      simp only [List.mem_cons, List.not_mem_nil, or_false] at hi
      rcases hi with rfl | rfl <;> rfl
    have hpars : u.par = s.par := hpar'.trans hpar
    have hrest := hc.settled drive n2 hi' (by rw [hpars]; exact hn2) d hd n1 settle (hlast'.trans hlast)
      (by rw [hpars]; exact hsettle)
    rwa [hpars] at hrest
  all_goals cases hrun

end Sys2Proof.Machine
end

section
namespace Sys2Proof.Machine

/-! ### The machine after reset -/

theorem cold_memoryOk (p : Params) : MemoryOk (.cold p) := rfl

theorem cold_idle {p : Params} (hp : p.Ok) (k : Fin 3) :
    ((State.cold p).fdd[k]).motor = false ∧ ((State.cold p).fdd[k]).busy = false := by
  obtain ⟨hmotor, hreading, hwriting, _⟩ := hp.resetDrive
  rw [cold_fdd_slot]
  exact ⟨hmotor, Fdd.busy_eq_false.2 ⟨hreading, hwriting⟩⟩

theorem cold_pin_low {p : Params} (hp : p.Ok) (l : IrqLine) : (State.cold p).pins.level l = false := by
  rw [State.cold_pins, hp.resetIdle.2.2]
  cases l <;> rfl

/-- Settles O60: each invariant is one that the cold boot meets, and nothing is pending. -/
theorem resetMeetsTheInvariants : Obligations.ResetMeetsTheInvariants := by
  refine ⟨default_ok, rfl, fun p hp => ?_⟩
  have hnone := cold_ag_none hp
  exact ⟨rfl, cold_memoryOk p, fun i => ⟨cold_aciasOk hp i, stable_linesOk.boot hp i⟩, stable_dmaOk.boot hp, cold_drivesOk hp,
    cold_inspectionOk hp, cold_acsiOk hp, (stable_written.boot hp).1, (stable_written.boot hp).2, (cold_atRest hp).dispatchOk,
    cold_widthsOk hp, fun c e he => (by rw [hnone] at he; cases he), fun h => (by rw [hnone] at h; cases h), hnone,
    hp.resetIdle.2.1, cold_idle hp, fun k => by rw [cold_acsi_device]; rfl, cold_pin_low hp⟩

end Sys2Proof.Machine
end

section
namespace Sys2Proof.Machine

/-! ### Register reads at a legal time -/

section
variable {s : State} {now : Clock}

/-- A register's own instruction reads that register. -/
theorem exec_readInstr (r : ReadReg) (now : Clock) (s : State) : exec (readInstr r now) s = readRegister r now s := by
  cases r
  case aciaSr i | aciaRdr i | aciaCr i | aciaFlags i | aciaTdrs i | aciaRdrs i | aciaLastTxWrite i | fddFlags i =>
    fin_cases i <;> rfl
  case dmaFifo h j => fin_cases h <;> rfl
  case acsidevCmd k j => fin_cases j <;> rfl
  all_goals rfl

theorem readRegister_ok (h : 0 ≤ s.par.sdiff now s.now) (r : ReadReg) :
    readRegister r now s = readRule r { s with now := now } := timed_ok h

end

/-- The level of a pin set, in full (60_exceptions.md R355). -/
theorem setPin_eq (s : State) (l : IrqLine) (v : Bool) :
    s.setPin l v = { s with pins := s.pins.put l v, trace := s.trace ++ pinEdge s l v } := by
  unfold State.setPin pinEdge
  split
  · rename_i hv
    have hput : s.pins.put l v = s.pins := by
      subst hv
      cases l <;> rfl
    rw [hput, List.append_nil]
  · rfl

/-- What disjoint bits put together are worth. -/
theorem or_eq_add {n : Nat} {x y : BitVec 32} (hx : x.toNat < 2 ^ n) (hy : 2 ^ n ∣ y.toNat) : x ||| y = x + y := by
  obtain ⟨a, ha⟩ := hy
  have hor : x.toNat ||| y.toNat = x.toNat + y.toNat := by
    rw [ha, Nat.or_comm, ← Nat.two_pow_add_eq_or_of_lt hx, Nat.add_comm]
  apply BitVec.eq_of_toNat_eq
  have hlt := (x ||| y).isLt
  rw [BitVec.toNat_or, hor] at hlt
  rw [BitVec.toNat_or, BitVec.toNat_add, hor, Nat.mod_eq_of_lt hlt]

/-- A bit put on top of lower ones. -/
theorem or_flag {n : Nat} {x c : BitVec 32} (hc : c.toNat = 2 ^ n) (hx : x.toNat < 2 ^ n) (v : Bool) :
    x ||| flag v c = x + (if v then c else 0) ∧ (x ||| flag v c).toNat < 2 ^ (n + 1) := by
  have hle : 2 ^ n < 2 ^ (n + 1) := Nat.pow_lt_pow_right (by decide) (Nat.lt_succ_self n)
  cases v with
  | false =>
    have hzero : x ||| flag false c = x := by simp [flag]
    rw [hzero]
    exact ⟨by simp, by omega⟩
  | true =>
    refine ⟨or_eq_add hx (by simp [flag, hc]), ?_⟩
    rw [BitVec.toNat_or]
    exact Nat.or_lt_two_pow (by omega) (by simp [flag, hc, hle])

/-! #### The bits of the status registers -/

/-- `SR` by its bits (10_state.md R35). -/
theorem sr_bits (a : Acia) : a.sr.setWidth 32 = (if a.rdrf then 0x01 else 0) + (if a.tdre then 0x02 else 0)
    + (if a.overrun then 0x20 else 0) + (if a.irq then (0x80 : BitVec 32) else 0) := by
  have hbits : ∀ r t o q : Bool, (flag r 0x01 ||| flag t 0x02 ||| flag o 0x20 ||| flag q 0x80 : Byte).setWidth 32 =
      (if r then 0x01 else 0) + (if t then 0x02 else 0) + (if o then 0x20 else 0) + (if q then (0x80 : BitVec 32) else 0) := by
    decide
  exact hbits _ _ _ _

/-- `FLAGS` of an ACIA by its bits (10_state.md R37). -/
theorem acia_flags_bits (a : Acia) : a.flags.setWidth 32 = (if a.lineBusyTx then 0x01 else 0)
    + (if a.lineBusyRx then 0x02 else 0) + (if a.txIrqEn then 0x04 else 0) + (if a.rxIrqEn then 0x08 else 0)
    + (if a.overrun then 0x10 else 0) + (if a.irq then 0x20 else 0) + BitVec.ofNat 32 (256 * a.clockDivide.toNat) := by
  have hbits : ∀ x r t o q y : Bool, ∀ n ∈ [1, 16, 64],
      (flag x 0x0001 ||| flag r 0x0002 ||| flag t 0x0004 ||| flag o 0x0008 ||| flag q 0x0010 ||| flag y 0x0020
        ||| BitVec.ofNat 16 (n * 256) : BitVec 16).setWidth 32 =
      (if x then 0x01 else 0) + (if r then 0x02 else 0) + (if t then 0x04 else 0) + (if o then 0x08 else 0)
        + (if q then 0x10 else 0) + (if y then 0x20 else 0) + BitVec.ofNat 32 (256 * n) := by
    decide
  exact hbits _ _ _ _ _ _ _ (by cases a.clockDivide <;> decide)

/-- `FLAGS` of a drive by its bits (10_state.md R44). -/
theorem fdd_flags_bits (f : Fdd) : f.flags.setWidth 32 = (if f.motor then 0x01 else 0) + (if f.reading then 0x02 else 0)
    + (if f.writing then 0x04 else 0) + (if f.disk = none then 0x08 else 0) + (if f.singleSided then 0x10 else 0)
    + (if f.ghost then (0x20 : BitVec 32) else 0) := by
  have hbits : ∀ x r t o q y : Bool,
      (flag x 0x01 ||| flag r 0x02 ||| flag t 0x04 ||| flag o 0x08 ||| flag q 0x10 ||| flag y 0x20 : Byte).setWidth 32 =
      (if x then 0x01 else 0) + (if r then 0x02 else 0) + (if t then 0x04 else 0) + (if o then 0x08 else 0)
        + (if q then 0x10 else 0) + (if y then (0x20 : BitVec 32) else 0) := by
    decide
  have hempty : f.empty = true ↔ f.disk = none := Option.isNone_iff_eq_none
  simp only [← hempty]
  exact hbits _ _ _ _ _ _

/-- The acknowledge bits of `STATUS` with the identity above them (10_state.md R28). -/
theorem waitAck_bits (cb : BitVec 8) :
    (1 : BitVec 32) ||| (2 : BitVec 32) ||| cb.setWidth 32 <<< 8 = 1 + (2 + 256 * cb.setWidth 32) ∧
      (1 + (2 + 256 * cb.setWidth 32) : BitVec 32).toNat < 2 ^ 16 := by
  have hcb := cb.isLt
  have hshift : (cb.setWidth 32 <<< 8).toNat = 2 ^ 8 * cb.toNat := by
    rw [BitVec.toNat_shiftLeft, BitVec.toNat_setWidth, Nat.shiftLeft_eq]
    omega
  have hmul : (256 : BitVec 32) * cb.setWidth 32 = cb.setWidth 32 <<< 8 := by
    apply BitVec.eq_of_toNat_eq
    have h256 : (256 : BitVec 32).toNat = 256 := rfl
    rw [hshift, BitVec.toNat_mul, BitVec.toNat_setWidth, h256]
    omega
  have hor : (1 : BitVec 32) ||| (2 : BitVec 32) ||| cb.setWidth 32 <<< 8 =
      (1 : BitVec 32) + ((2 : BitVec 32) + cb.setWidth 32 <<< 8) := by
    rw [or_eq_add (n := 8) (by decide) ⟨_, hshift⟩, ← BitVec.add_assoc]
    rfl
  rw [hmul, ← hor, BitVec.toNat_or]
  exact ⟨rfl, Nat.or_lt_two_pow (by decide) (by omega)⟩

/-- `STATUS` of the ENGINE by its bits (10_state.md R28). -/
theorem engineStatus_bits (s : State) : engineStatus s = (if s.disp = .idle then 0 else 1)
    + (if s.disp = .waitAck then 2 + 256 * s.fireCb.setWidth 32 else 0) + (if s.pins.kbd then 0x10000 else 0)
    + (if s.pins.midi then 0x20000 else 0) + (if s.pins.disk then (0x40000 : BitVec 32) else 0) := by
  have hlow : flag (s.disp != .idle) 0x00000001 ||| flag (s.disp == .waitAck) 0x00000002
        ||| (if s.disp = .waitAck then s.fireCb.setWidth 32 <<< 8 else 0) =
      (if s.disp = .idle then 0 else 1) + (if s.disp = .waitAck then 2 + 256 * s.fireCb.setWidth 32 else 0) ∧
      ((if s.disp = .idle then 0 else 1) +
        (if s.disp = .waitAck then 2 + 256 * s.fireCb.setWidth 32 else 0) : BitVec 32).toNat < 2 ^ 16 := by
    cases s.disp with
    | idle | scan => exact ⟨by simp [flag], by simp⟩
    | waitAck => exact waitAck_bits s.fireCb
  obtain ⟨heq, hlt⟩ := hlow
  obtain ⟨hk, hklt⟩ := or_flag (c := 0x10000) rfl hlt s.pins.kbd
  obtain ⟨hm, hmlt⟩ := or_flag (c := 0x20000) rfl hklt s.pins.midi
  obtain ⟨hd, _⟩ := or_flag (c := 0x40000) rfl hmlt s.pins.disk
  rw [engineStatus, heq, hd, hm, hk]

/-! #### The obligations -/

section
variable {s : State} {now : Clock} (h : 0 ≤ s.par.sdiff now s.now)
include h

/-- A register that answers its element as DATA. -/
theorem exec_readInstr_data (r : ReadReg) {v : BitVec 32}
    (hr : ∀ u, u = { s with now := now } → readRule r u = respondData v u) :
    exec (readInstr r now) s = .next (State.answer { s with now := now } (respWord 0 3 0 v 0)) := by
  rw [exec_readInstr, readRegister_ok h, hr _ rfl]
  rfl

/-- A register that answers its element as TIME. -/
theorem exec_readInstr_time (r : ReadReg) {v : Clock}
    (hr : ∀ u, u = { s with now := now } → readRule r u = respondTime v u) :
    exec (readInstr r now) s = .next (State.answer { s with now := now } (respWord 0 3 0 0 v)) := by
  rw [exec_readInstr, readRegister_ok h, hr _ rfl]
  rfl

end

/-- `CheckIrq` in full. -/
theorem checkIrq_eq (i : Fin 2) (s : State) : checkIrq i s = { s with
    acia := s.acia.set i { s.acia[i] with irq := (s.acia[i]).irqFormula }
    pins := s.pins.put (aciaLine i) (s.acia[i]).irqFormula
    trace := s.trace ++ pinEdge s (aciaLine i) (s.acia[i]).irqFormula } := by
  rw [checkIrq, setPin_eq]
  simp [State.modAcia, pinEdge]

theorem readRdr_eq (i : Fin 2) (s : State) :
    readRdr i s = { s with
      acia := s.acia.set i { s.acia[i] with
        rdrf := false, overrun := false, irq := (s.acia[i]).tdre && (s.acia[i]).txIrqEn }
      pins := s.pins.put (aciaLine i) ((s.acia[i]).tdre && (s.acia[i]).txIrqEn)
      trace := s.trace ++ pinEdge s (aciaLine i) ((s.acia[i]).tdre && (s.acia[i]).txIrqEn) } := by
  rw [readRdr, checkIrq_eq]
  simp [State.modAcia, pinEdge, Acia.irqFormula]

/-- Settles O28: each instruction reads its register, and SR and FLAGS are sums of their bits. -/
theorem aciaReads : Obligations.AciaReads := by
  intro s i now h
  refine ⟨?_, ?_, ?_⟩
  · refine (exec_readInstr (.aciaRdr i) now s).trans ?_
    rw [readRegister_ok h, readRule, readRdr_eq]
    rfl
  · intro r hr
    simp only [List.mem_cons, List.not_mem_nil, or_false] at hr
    rcases hr with rfl | rfl | rfl | rfl | rfl
    · rw [← sr_bits]
      exact exec_readInstr_data h (.aciaSr i) fun _ hu => hu ▸ rfl
    · exact exec_readInstr_data h (.aciaCr i) fun _ hu => hu ▸ rfl
    · rw [← acia_flags_bits]
      exact exec_readInstr_data h (.aciaFlags i) fun _ hu => hu ▸ rfl
    · exact exec_readInstr_data h (.aciaTdrs i) fun _ hu => hu ▸ rfl
    · exact exec_readInstr_data h (.aciaRdrs i) fun _ hu => hu ▸ rfl
  · exact exec_readInstr_time h (.aciaLastTxWrite i) fun _ hu => hu ▸ rfl

end Sys2Proof.Machine
end

section
namespace Sys2Proof.Machine

/-! ### The ENGINE's registers -/

/-- `PENDING` by its bits (10_state.md R29). -/
theorem enginePending_bits (s : State) (c : CbId) (hc : c.val < 32) :
    (enginePending s).getLsbD c.val = (decide (c.val < s.par.ncb) && (s.ag[c]).isSome) := by
  rw [enginePending, BitVec.getLsbD_ofFnLE, dif_pos hc]
  rfl

/-- CFG takes 0 and 1 (40_agenda.md R145). -/
theorem accepts_engineCfg (p : Params) (v : Byte) :
    WriteReg.accepts p .engineCfg (v.setWidth 32) = decide (v.toNat < 2) := by
  have hv := v.isLt
  have hval : (v.setWidth 32).toNat = v.toNat := by
    rw [BitVec.toNat_setWidth]
    omega
  simp only [WriteReg.accepts, WriteReg.width, hval, hv, decide_true, bne_self_eq_false, Bool.false_or, Bool.true_and]

section
variable {s : State} {now : Clock} {v : Byte}

theorem exec_regWrEngineCfg_ok (h : 0 ≤ s.par.sdiff now s.now) (hv : v.toNat < 2) :
    exec (.regWrEngineCfg v now) s = .next (State.answer { s with now := now, cfg := v } (respWord 0 1 0 0 0)) := by
  have hrun : exec (.regWrEngineCfg v now) s = writeRegister .engineCfg (v.setWidth 32) now s := rfl
  have hback : (v.setWidth 32).setWidth 8 = v := by simp
  rw [hrun, writeRegister, accepts_engineCfg, if_pos (decide_eq_true hv), timed_ok h, writeRule, hback]
  rfl

theorem exec_regWrEngineCfg_bad (hv : 2 ≤ v.toNat) :
    exec (.regWrEngineCfg v now) s = .next (s.answer (respWord 0x02 0 0 0 0)) := by
  have hrun : exec (.regWrEngineCfg v now) s = writeRegister .engineCfg (v.setWidth 32) now s := rfl
  rw [hrun, writeRegister, accepts_engineCfg, if_neg (by rw [decide_eq_true_iff]; omega)]
  rfl

end

/-- Settles O55: each instruction reads its register; the check of CFG comes before that of the time. -/
theorem engineRegisters : Obligations.EngineRegisters := by
  refine fun s now => ⟨fun h => ⟨?_, ?_, ?_, ⟨_, ?_, enginePending_bits s⟩, fun _ hv => exec_regWrEngineCfg_ok h hv⟩,
    fun _ hv => exec_regWrEngineCfg_bad hv⟩
  · exact exec_readInstr_data h .engineCfg fun _ hu => hu ▸ rfl
  · rw [← engineStatus_bits]
    exact exec_readInstr_data h .engineStatus fun _ hu => hu ▸ rfl
  · exact exec_readInstr_time h .engineNow fun _ hu => hu ▸ rfl
  · exact exec_readInstr_data h .enginePending fun _ hu => hu ▸ rfl

/-! ### The observation reads -/

/-- `STATUS` of the DMA by its bits (10_state.md R40). -/
theorem dma_status_bits (m : Dma) : m.status.setWidth 32 = (if m.err then 0 else 1) + (if m.sct = 0 then 0 else 2)
    + (if m.drq then (4 : BitVec 32) else 0) := by
  have hbits : ∀ e n q : Bool, (flag (!e) 0x01 ||| flag n 0x02 ||| flag q 0x04 : Byte).setWidth 32 =
      (if e then 0 else 1) + (if n then 2 else 0) + (if q then (4 : BitVec 32) else 0) := by
    decide
  have hsct : (if (m.sct != 0) = true then (2 : BitVec 32) else 0) = if m.sct = 0 then 0 else 2 := by
    by_cases h : m.sct = 0 <;> simp [h]
  rw [← hsct]
  exact hbits _ _ _

/-- `FIFOCTL` by its fields (10_state.md R42). -/
theorem dma_fifoctl_bits (m : Dma) : m.fifoctl.setWidth 32 = BitVec.ofNat 32 m.idx.val + (if m.sel = 0 then 0 else 0x10)
    + (if m.drq then 0x20 else 0) + (if m.err then (0x40 : BitVec 32) else 0) := by
  have hbits : ∀ (i : Fin 16) (h : Fin 2) (q e : Bool),
      (BitVec.ofNat 8 i.val ||| flag (h == 1) 0x10 ||| flag q 0x20 ||| flag e 0x40 : Byte).setWidth 32 =
      BitVec.ofNat 32 i.val + (if h = 0 then 0 else 0x10) + (if q then 0x20 else 0)
        + (if e then (0x40 : BitVec 32) else 0) := by
    decide
  exact hbits _ _ _ _

theorem acsi_flags_bits (a : AcsiDev) : a.flags.setWidth 32 = if a.present then (1 : BitVec 32) else 0 := by
  unfold AcsiDev.flags
  cases a.present <;> rfl

theorem readInstr_fddFlags (d : Fin 2) (now : Clock) :
    readInstr (.fddFlags (driveSlot d)) now = .regRdFddFlags d now := by fin_cases d <;> rfl

/-- A read that lowers the disk's line answers the value and keeps it (60_exceptions.md R357). -/
theorem lower_disk (s : State) (now : Clock) (v : Byte) :
    respondData (v.setWidth 32) (State.setPin { s with now := now } .disk false) =
      .next (State.answer { s with
          now := now
          pins := { s.pins with disk := false }
          trace := s.trace ++ pinEdge s .disk false }
        (respWord 0 3 0 (v.setWidth 32) 0)) := by
  rw [setPin_eq]
  rfl

/-- Settles O56: each instruction reads its register; the flag registers are sums of their bits, and the two reads that lower
the line do so by `SetIrqPin`. -/
theorem observationReads : Obligations.ObservationReads := by
  intro s now j d k h
  have data := @exec_readInstr_data s now h
  refine ⟨?_, ?_, ?_⟩
  · intro r hr
    simp only [← dma_status_bits, ← dma_fifoctl_bits, ← fdd_flags_bits, ← acsi_flags_bits, List.mem_cons, List.not_mem_nil,
      or_false] at hr
    rcases hr with rfl | rfl | rfl | rfl | rfl | rfl | rfl | rfl | rfl | rfl | rfl | rfl | rfl | rfl | rfl | rfl | rfl |
      rfl | rfl | rfl | rfl | rfl | rfl | rfl | rfl
    · exact data .dmaStatus fun _ hu => hu ▸ rfl
    · exact data .dmaSct fun _ hu => hu ▸ rfl
    · exact data .dmaAddr fun _ hu => hu ▸ rfl
    · exact data .dmaBct fun _ hu => hu ▸ rfl
    · exact data .dmaMcr fun _ hu => hu ▸ rfl
    · exact data .dmaFifoctl fun _ hu => hu ▸ rfl
    · exact data (.dmaFifo 0 j) fun _ hu => hu ▸ rfl
    · exact data (.dmaFifo 1 j) fun _ hu => hu ▸ rfl
    · exact data (.fddTrack d) fun _ hu => hu ▸ rfl
    · exact readInstr_fddFlags d now ▸ data (.fddFlags (driveSlot d)) fun _ hu => hu ▸ rfl
    · exact data (.fddCpb d) fun _ hu => hu ▸ rfl
    · exact data (.fddFlags 2) fun _ hu => hu ▸ rfl
    · exact data .acsibusOwner fun _ hu => hu ▸ rfl
    · exact data (.acsidevPhase k) fun _ hu => hu ▸ rfl
    · exact data (.acsidevStatus k) fun _ hu => hu ▸ rfl
    · exact data (.acsidevError k) fun _ hu => hu ▸ rfl
    · exact data (.acsidevSectors k) fun _ hu => hu ▸ rfl
    · exact data (.acsidevFlags k) fun _ hu => hu ▸ rfl
    · exact data (.acsidevCurLba k) fun _ hu => hu ▸ rfl
    · exact data (.acsidevCmd k 0) fun _ hu => hu ▸ rfl
    · exact data (.acsidevCmd k 1) fun _ hu => hu ▸ rfl
    · exact data (.acsidevCmd k 2) fun _ hu => hu ▸ rfl
    · exact data (.acsidevCmd k 3) fun _ hu => hu ▸ rfl
    · exact data (.acsidevCmd k 4) fun _ hu => hu ▸ rfl
    · exact data (.acsidevCmd k 5) fun _ hu => hu ▸ rfl
  · intro r hr
    simp only [List.mem_cons, List.not_mem_nil, or_false] at hr
    rcases hr with rfl | rfl
    · exact exec_readInstr_time h (.fddTlast d) fun _ hu => hu ▸ rfl
    · exact exec_readInstr_time h (.fddTnext d) fun _ hu => hu ▸ rfl
  · intro r hr
    simp only [List.mem_cons, List.not_mem_nil, or_false] at hr
    rcases hr with rfl | rfl
    · exact (exec_readInstr (.fddCond d) now s).trans ((readRegister_ok h _).trans (lower_disk s now _))
    · exact (exec_readInstr .acsibusStatus now s).trans ((readRegister_ok h _).trans (lower_disk s now _))

end Sys2Proof.Machine
end

section
namespace Sys2Proof.Machine

/-! ### Motor, pulses and head -/

/-- A delay up to a time ends at that time, whatever the width of the clock. -/
theorem tadd_cycles_sub_now (p : Params) (now : Clock) (n : Nat) : p.tadd now (p.cycles n - now) = p.cycles n := by
  rcases Nat.le_total p.cw 64 with hcw | hcw
  · exact tadd_cycles_sub hcw now n
  · have hadd : ∀ d : Clock, p.tadd now d = now + d := fun d => by
      apply BitVec.eq_of_toNat_eq
      rw [Params.tadd, Params.cycles, BitVec.toNat_ofNat, Nat.mod_mod_of_dvd _ (Nat.pow_dvd_pow 2 hcw), BitVec.toNat_add]
    rw [hadd, BitVec.add_comm, BitVec.sub_add_cancel]

/-- The track after a step, clamped (44_floppy.md R271). -/
theorem stepTrack_eq (p : Params) (track : BitVec 8) (dir : Bool) :
    stepTrack p track dir = if dir then (if track.toNat < p.fddMaxTrack.toNat then track + 1 else p.fddMaxTrack)
      else (if track = 0 then 0 else track - 1) := by
  have htrack := track.isLt
  have hmax := p.fddMaxTrack.isLt
  unfold stepTrack
  cases dir with
  | true =>
    rw [if_pos rfl, if_pos rfl]
    split
    · rename_i hlt
      rw [Nat.min_eq_left hlt]
      exact BitVec.eq_of_toNat_eq (by simp)
    · rename_i hge
      rw [Nat.min_eq_right (by omega), BitVec.ofNat_toNat, BitVec.setWidth_eq]
  | false =>
    rw [if_neg Bool.false_ne_true, if_neg Bool.false_ne_true]
    split
    · rename_i hzero
      rw [hzero]
      rfl
    · rename_i hne
      have hpos : track.toNat ≠ 0 := fun e => hne (BitVec.eq_of_toNat_eq e)
      bv_omega

section
variable {s : State} {drive : BitVec 8} {now : Clock} {d : Fin 2}

theorem exec_fddMotor (on : Bool) (hd : d.val = drive.toNat) (h : 0 ≤ s.par.sdiff now s.now) :
    exec (.fddMotor drive on now) s =
      if on = (s.fdd[driveSlot d]).motor then respondOk { s with now := now }
      else if on then respondOk (motorOn d { s with now := now })
      else if (s.fdd[driveSlot d]).busy then raise .busy { s with now := now }
      else respondOk (motorOff d { s with now := now }) := by
  have hrun : exec (.fddMotor drive on now) s = execFddMotor drive on now s := rfl
  rw [hrun, execFddMotor, select_ok d d.isLt hd.symm, timed_ok h]

theorem exec_fddStep (dir : Bool) (hd : d.val = drive.toNat) (h : 0 ≤ s.par.sdiff now s.now) :
    exec (.fddStep drive dir now) s =
      if (s.fdd[driveSlot d]).busy then raise .busy { s with now := now }
      else respondData ((stepTrack s.par (s.fdd[driveSlot d]).track dir).setWidth 32)
        (stepHead d dir { s with now := now }) := by
  have hrun : exec (.fddStep drive dir now) s = execFddStep drive dir now s := rfl
  have htrack : ((stepHead d dir { s with now := now }).fdd[driveSlot d]).track =
      stepTrack s.par (s.fdd[driveSlot d]).track dir := by simp [stepHead]
  rw [hrun, execFddStep, select_ok d d.isLt hd.symm, timed_ok h]
  dsimp only
  rw [htrack]

end

theorem exec_index (s : State) (d : Fin 2) : exec (if d = 0 then .cbFdd0Index else .cbFdd1Index) s =
    dispatchEntry (fddIndexId d) (fun e s => .next (indexPulse d e.fireTime s)) s := by fin_cases d <;> rfl

/-- The pulse in full: the next one comes one rotation after this one's fire time (44_floppy.md R268). -/
theorem indexPulse_eq (d : Fin 2) (ft : Clock) (s : State) :
    indexPulse d ft (s.cancel (fddIndexId d)) = { s with
      ag := s.ag.set (fddIndexId d) (some
        { fireTime := s.par.tadd ft ((s.fdd[driveSlot d]).rotation s.par), param := BitVec.ofNat 32 d.val })
      fdd := s.fdd.set (driveSlot d) { s.fdd[driveSlot d] with
        tLast := ft, tNext := s.par.tadd ft ((s.fdd[driveSlot d]).rotation s.par) }
      trace := s.trace ++ [.index d] } := by
  have harm : s.par.tadd s.now (s.par.tadd ft ((s.fdd[driveSlot d]).rotation s.par) - s.now) =
      s.par.tadd ft ((s.fdd[driveSlot d]).rotation s.par) := tadd_cycles_sub_now _ _ _
  simp only [indexPulse, State.schedule, State.cancel, State.modFdd, State.emit, Vector.set_set]
  rw [harm]

/-- Settles O37: each command is its case of FDD_MOTOR or FDD_STEP, and the pulse re-arms at `t_next`. -/
theorem motorPulsesAndSteps : Obligations.MotorPulsesAndSteps := by
  refine ⟨fun s drive on now => ⟨fun d hd h => ?_, fun hbad => ?_⟩, fun s d e he => ?_,
    fun s drive dir now => ⟨fun d hd h => ?_, fun hbad => ?_⟩⟩
  · have hrun := exec_fddMotor on hd h
    refine ⟨fun hsame => ?_, fun hon hoff => ?_, fun hoff hon hr hw => ?_, fun hoff hon hb => ?_⟩
    · rw [hrun, if_pos hsame]
      rfl
    · rw [hrun, if_neg (by rw [hon, hoff]; decide), if_pos hon]
      rfl
    · have hidle := Fdd.busy_eq_false.2 ⟨hr, hw⟩
      rw [hrun, if_neg (by rw [hon, hoff]; decide), if_neg (by rw [hoff]; decide), if_neg (Bool.eq_false_iff.1 hidle)]
      rfl
    · rw [hrun, if_neg (by rw [hon, hoff]; decide), if_neg (by rw [hoff]; decide), if_pos (Fdd.busy_iff.2 hb)]
      rfl
  · exact select_bad hbad
  · rw [exec_index, dispatchEntry, he]
    exact congrArg _ (indexPulse_eq d e.fireTime s)
  · have hrun := exec_fddStep dir hd h
    refine ⟨fun hr hw => ?_, fun hb => ?_⟩
    · have hidle := Fdd.busy_eq_false.2 ⟨hr, hw⟩
      rw [hrun, if_neg (Bool.eq_false_iff.1 hidle), ← stepTrack_eq]
      rfl
    · rw [hrun, if_pos (Fdd.busy_iff.2 hb)]
      rfl
  · exact select_bad hbad

end Sys2Proof.Machine
end

section
namespace Sys2Proof.Machine

/-! ### The canonical form of memory -/

/-- The form speaks of memory and of the width of its addresses alone. -/
theorem MemoryOk.of_same {s t : State} (h : MemoryOk s) (hp : t.par = s.par) (hm : t.mem = s.mem) : MemoryOk t := by
  unfold MemoryOk at h ⊢
  rwa [hp, hm]

theorem blind_memoryOk : Blind MemoryOk where
  answer _ h := h.of_same (by simp) (by simp)
  clock _ h := h
  buffers _ h := h

namespace MemoryOk
variable {s : State}

/-! #### The operations that move bytes -/

/-- Of the operations of the DMA only `DrqIn` writes memory (20_memory.md R74, 43_dma.md R239). -/
theorem drqInAll (h : MemoryOk s) (l : List Byte) : MemoryOk (drqInAll l s) := by
  have hform := Memory.wf_drqInAll l s h
  rwa [← (drqInAll_leaves l s).1] at hform

theorem drqOutAll (h : MemoryOk s) (n : Nat) : MemoryOk (drqOutAll n s).2 := h.of_same (by simp) (by simp)

theorem modAcsi (h : MemoryOk s) (k : Dev) (f : AcsiDev → AcsiDev) : MemoryOk (s.modAcsi k f) := h

theorem setAx (h : MemoryOk s) (a : AcsiXfer) : MemoryOk { s with ax := a } := h

theorem acsiBegin (h : MemoryOk s) (k : Dev) : MemoryOk (acsiBegin k s) := h

theorem fddXferDone (h : MemoryOk s) (d : Fin 2) : MemoryOk (fddXferDone d s) := by
  unfold Machine.fddXferDone
  refine MemoryOk.of_same ?_ (State.setPin_par _ _ _) (State.setPin_mem _ _ _)
  split
  · exact h.drqInAll _
  · exact h.of_same (by simp) (by simp)

theorem moveBlock (h : MemoryOk s) (k : Dev) : MemoryOk (moveBlock k s).2 := by
  unfold Machine.moveBlock
  split
  · have hread : MemoryOk (readBlock k s).2 := h.of_same (by simp) (by simp)
    unfold moveIn
    split
    · exact hread
    · exact ((hread.drqInAll _).setAx _).modAcsi k _
  · have hasked : MemoryOk (Machine.drqOutAll s.par.acsiBlockBytes s).2 := h.drqOutAll _
    unfold moveOut drqOutBytes
    dsimp only
    split
    · exact hasked
    · split
      · exact ((hasked.of_same (by simp) (by simp)).setAx _).modAcsi k _
      · exact hasked.of_same (by simp) (by simp)

theorem moveBlocks (h : MemoryOk s) (k : Dev) (n : Nat) : MemoryOk (moveBlocks k n s) := by
  induction n generalizing s with
  | zero => exact h
  | succ n ih =>
    unfold Machine.moveBlocks
    dsimp only
    split
    · exact ih (h.moveBlock k)
    · exact h.moveBlock k

theorem acsiFinish (h : MemoryOk s) (k : Dev) : MemoryOk (acsiFinish k s) := h.of_same (by simp) (by simp)

theorem endTransfer (h : MemoryOk s) (k : Dev) : MemoryOk (endTransfer k s) := (h.setAx _).acsiFinish k

theorem startTransfer (h : MemoryOk s) (k : Dev) (dir : Dir) (lba : BitVec 24) (count : Byte) :
    MemoryOk (startTransfer k dir lba count s) := by
  unfold Machine.startTransfer
  dsimp only
  split
  · exact h.of_same (by simp) (by simp)
  · split
    · exact h.of_same (by simp) (by simp)
    · split
      · exact h
      · exact (((h.setAx _).modAcsi k _).moveBlocks k _).endTransfer k

theorem acsiBlockDone (h : MemoryOk s) (k : Dev) (ft : Clock) : MemoryOk (acsiBlockDone k ft s) := by
  unfold Machine.acsiBlockDone
  dsimp only
  split
  · exact (h.moveBlock k).of_same rfl rfl
  · exact (h.moveBlock k).endTransfer k

/-! #### The instructions -/

/-- A register write changes no byte of memory. -/
theorem writeRule (h : MemoryOk s) (r : WriteReg) (v : BitVec 32) : Leads MemoryOk (writeRule r v s) := by
  by_cases hr : Part.dma ∈ writeParts r
  · cases r
    case dmaMcr | dmaSct | dmaAddr => exact .respond blind_memoryOk (h.of_same rfl rfl)
    all_goals exact absurd hr (by simp [writeParts])
  · exact (leads_writeRule (L := True) s r v).mono fun _ same => h.of_same same.par (same.dma hr).2

theorem writeRegister (h : MemoryOk s) (r : WriteReg) (v : BitVec 32) (now : Clock) :
    Leads MemoryOk (writeRegister r v now s) :=
  .writeRegister blind_memoryOk h fun _ ht => ht.writeRule r v

/-- Answering the bus write of a command block leaves memory alone. -/
theorem acsiAnswer {u : State} (h : MemoryOk u) : Leads MemoryOk (acsiAnswer u) :=
  .respond blind_memoryOk (h.of_same rfl rfl)

/-- Every instruction but RESET: what touches the DMA moves bytes by its operations, the others leave memory alone. -/
theorem exec (h : MemoryOk s) (i : Instr) (hi : i ≠ .reset) : Leads MemoryOk (exec i s) := by
  by_cases hd : touches i .dma = true
  · have hentry : ∀ c, MemoryOk (s.cancel c) := fun c => h.of_same rfl rfl
    cases i
    case regWr => exact .execRegWr blind_memoryOk h h.writeRegister
    case regWrDmaMcr | regWrDmaSct | regWrDmaAddr => exact h.writeRegister _ _ _
    case cbFdd0Xfer => exact .callback h fun _ _ => (hentry _).fddXferDone 0
    case cbFdd1Xfer => exact .callback h fun _ _ => (hentry _).fddXferDone 1
    case cbAcsiBlock => exact .callback h fun _ _ => (hentry _).acsiBlockDone _ _
    case acsiRequestSense k _ _ _ =>
      exact acsiAnswer ((((h.modAcsi k _).drqInAll _).modAcsi k _).acsiFinish k)
    case acsiInquiry k _ _ _ =>
      exact acsiAnswer (((h.acsiBegin k).drqInAll _).acsiFinish k)
    case acsiModeSelect k _ _ _ => exact acsiAnswer (((h.acsiBegin k).drqOutAll _).acsiFinish k)
    case acsiRead k _ _ _ | acsiWrite k _ _ _ => exact acsiAnswer ((h.acsiBegin k).startTransfer k _ _ _)
    all_goals exact absurd hd Bool.false_ne_true
  · exact (exec_sameBut i s hi).mono fun _ same => h.of_same same.par (same.dma (not_mem_partsOf hd)).2

end MemoryOk

/-- Settles O35: a step refuses a word, ends the loop, boots, which leaves memory, or runs an instruction. -/
theorem memoryStaysCanonical : Obligations.MemoryStaysCanonical := by
  intro s t h hstep
  have hturn : ∀ p c, MemoryOk (s.turn p c) := fun _ _ => h
  rcases step_from hstep with rfl | ⟨p, c, ⟨⟨e, rfl⟩, _⟩ | ⟨_, rfl⟩ | ⟨i, _, _, hrun⟩⟩
  · exact h
  · exact (hturn p c).of_same (by simp) (by simp)
  · exact (hturn p c).of_same (by simp) (by simp)
  · by_cases hi : i = .reset
    · subst hi
      cases hrun
      exact blind_memoryOk.answer _ ((hturn p c).of_same rfl rfl)
    · exact (hturn p c).exec i hi t hrun

end Sys2Proof.Machine
end

section
namespace Sys2Proof.Machine

/-! ### Which port a step serves -/

/-- A port has work exactly when something is fetched from it. -/
theorem fetchPort_isSome (p : Port) (s : State) : (fetchPort p s).isSome = hasWork s p := by
  cases p with
  | X => cases hq : s.portX.queue <;> simp [fetchPort, fetchX, hasWork, hq]
  | E =>
    simp only [fetchPort, fetchE, hasWork]
    split
    · rename_i hscan
      simp [hscan]
    · rename_i hscan
      split
      · rename_i k hk
        simp [hk]
      · rename_i hk
        cases s.portE.queue <;> simp [hscan, hk]

/-- Whether a port has work does not depend on the free choices. -/
theorem hasWork_picks (s : State) (p : Port) (c : Choices) : hasWork { s with picks := c } p = hasWork s p := by
  cases p <;> rfl

theorem exists_fetchPort {p : Port} {s : State} (h : hasWork s p = true) : ∃ w, fetchPort p s = some w :=
  Option.isSome_iff_exists.1 (by rwa [fetchPort_isSome])

theorem fetchPort_eq_none {p : Port} {s : State} (h : hasWork s p = false) : fetchPort p s = none :=
  Option.not_isSome_iff_eq_none.1 (by simp [fetchPort_isSome, h])

/-- What a step does with what it found. -/
def Work.result (s : State) : Work → Result
  | .idle => .next s
  | .reply t => .next t
  | .run i u => exec i u

theorem step_eq (s : State) : step s = (fetch s).result s := by
  unfold step
  cases fetch s <;> rfl

/-- With work on one port alone the step does it. -/
theorem step_of_alone {s : State} {p : Port} {w : Work} (hw : fetchPort p s = some w)
    (ho : hasWork s (otherPort p) = false) : step s = w.result s := by
  have hnone := fetchPort_eq_none ho
  rw [step_eq]
  cases p <;> simp only [fetchPort, otherPort] at hw hnone <;> rw [fetch, hw, hnone]

/-- The free choices after a contest that a port won with turns left. -/
def Choices.wonBy (c : Choices) (p : Port) (k : Nat) : Choices := { taken := c.taken + 1, favour := some (p, k) }

theorem contest_eq_wonBy {c : Choices} {p : Port} {k : Nat} (h : nextTurn c = (p, k)) : c.contest = c.wonBy p k :=
  congrArg (fun turn => ({ taken := c.taken + 1, favour := some turn } : Choices)) h

/-- With work on both the step does that of the port whose turn it is, the choice being taken. -/
theorem step_of_contest {s : State} {p : Port} {k : Nat} {w : Work} (hE : hasWork s .E = true)
    (hX : hasWork s .X = true) (hturn : nextTurn s.picks = (p, k))
    (hw : fetchPort p { s with picks := s.picks.wonBy p k } = some w) :
    step s = w.result s := by
  obtain ⟨e, he⟩ := exists_fetchPort hE
  obtain ⟨x, hx⟩ := exists_fetchPort hX
  simp only [fetchPort] at he hx
  rw [step_eq, fetch, he, hx]
  simp only [hturn, contest_eq_wonBy hturn, hw, Option.getD_some]

/-- Whatever a port's work is, doing it serves that port and leaves whose turn it is. -/
theorem Work.Serves.result {p : Port} {c : Choices} {w : Work} {s t : State} (h : w.Serves p c)
    (ht : w.result s = .next t) : t.serving = p ∧ t.picks.favour = c.favour := by
  cases w with
  | idle => exact absurd h id
  | reply u =>
    cases ht
    exact h
  | run i u =>
    obtain ⟨hserving, hpicks⟩ := exec_keepsTurn i u t ht
    rw [hserving, hpicks]
    exact h

theorem port_eq_or_other (p q : Port) : q = p ∨ q = otherPort p := by cases p <;> cases q <;> simp [otherPort]

theorem hasWork_both {s : State} {p : Port} (hp : hasWork s p = true) (ho : hasWork s (otherPort p) = true) :
    hasWork s .E = true ∧ hasWork s .X = true := by
  cases p with
  | E => exact ⟨hp, ho⟩
  | X => exact ⟨ho, hp⟩

/-- A port that has work is served, or the other one is, by its turn. -/
theorem step_serves {s t : State} {p : Port} (hp : hasWork s p = true) (h : step s = .next t) :
    t.serving = p ∨ ∃ k, nextTurn s.picks = (otherPort p, k) ∧ t.picks.favour = some (otherPort p, k) := by
  cases ho : hasWork s (otherPort p) with
  | false =>
    obtain ⟨w, hw⟩ := exists_fetchPort hp
    rw [step_of_alone hw ho] at h
    exact .inl ((fetchPort_serves hw).result h).1
  | true =>
    obtain ⟨hE, hX⟩ := hasWork_both hp ho
    obtain ⟨q, k, hturn⟩ : ∃ q k, nextTurn s.picks = (q, k) := ⟨_, _, rfl⟩
    have hq : hasWork s q = true := by rcases port_eq_or_other p q with rfl | rfl <;> assumption
    obtain ⟨w, hw⟩ := exists_fetchPort ((hasWork_picks s q (s.picks.wonBy q k)).trans hq)
    rw [step_of_contest hE hX hturn hw] at h
    obtain ⟨hserving, hfavour⟩ := (fetchPort_serves hw).result h
    rcases port_eq_or_other p q with rfl | rfl
    · exact .inl hserving
    · exact .inr ⟨k, hturn, hfavour⟩

/-! ### No port is passed over for ever -/

/-- A port with turns left moves, and has one less. -/
theorem nextTurn_favoured {c : Choices} {p : Port} {k : Nat} (h : c.favour = some (p, k + 1)) :
    nextTurn c = (p, k) := by
  simp [nextTurn, h]

/-- A port without gives way to the other. -/
theorem nextTurn_spent {c : Choices} {p : Port} (h : c.favour = some (p, 0)) :
    nextTurn c = (otherPort p, Config.portBurst c.taken) := by simp [nextTurn, h]

section
variable {run : Nat → State} {p : Port} {n : Nat}

/-- While the other port is favoured it wins one contest after another, as many as it has turns left. -/
theorem served_after_turns (hrun : ∀ m, n ≤ m → step (run m) = .next (run (m + 1)) ∧ hasWork (run m) p = true)
    (k m : Nat) (hm : n ≤ m) (hfavour : (run m).picks.favour = some (otherPort p, k)) :
    ∃ m', n ≤ m' ∧ (run (m' + 1)).serving = p := by
  induction k generalizing m with
  | zero =>
    obtain ⟨hstep, hwork⟩ := hrun m hm
    rcases step_serves hwork hstep with hserved | ⟨j, hother, _⟩
    · exact ⟨m, hm, hserved⟩
    · rw [nextTurn_spent hfavour] at hother
      exact absurd (congrArg Prod.fst hother) (otherPort_ne _)
  | succ k ih =>
    obtain ⟨hstep, hwork⟩ := hrun m hm
    rcases step_serves hwork hstep with hserved | ⟨j, hother, hnext⟩
    · exact ⟨m, hm, hserved⟩
    · rw [nextTurn_favoured hfavour] at hother
      cases hother
      exact ih (m + 1) (by omega) hnext

theorem served_in_the_end (hrun : ∀ m, n ≤ m → step (run m) = .next (run (m + 1)) ∧ hasWork (run m) p = true) :
    ∃ m, n ≤ m ∧ (run (m + 1)).serving = p := by
  obtain ⟨hstep, hwork⟩ := hrun n le_rfl
  rcases step_serves hwork hstep with hserved | ⟨k, _, hnext⟩
  · exact ⟨n, le_rfl, hserved⟩
  · exact served_after_turns hrun k (n + 1) (by omega) hnext

end

/-! ### The work of a port, by its kind -/

section
variable {s : State} {w : Word128} {rest : List Word128}

theorem fetchX_word (h : s.portX.queue = w :: rest) :
    fetchPort .X s = some (fetchCommand .X w { s with serving := .X }) := by simp [fetchPort, fetchX, h]

theorem fetchE_word (hd : s.disp ≠ .scan) (ha : s.acsiPending = none) (h : s.portE.queue = w :: rest) :
    fetchPort .E s = some (fetchCommand .E w { s with serving := .E }) := by
  simp [fetchPort, fetchE, hd, ha, h]

theorem fetchE_block {k : Dev} (hd : s.disp ≠ .scan) (ha : s.acsiPending = some k) :
    fetchPort .E s = some (.run (decodeAcsi (acsiBlock k (s.acsi[k]).cmd)) { s with serving := .E }) := by
  simp [fetchPort, fetchE, hd, ha]

/-- A word at the head of a port runs its instruction, or is refused. -/
theorem fetchCommand_result (p : Port) (w : Word128) (s u : State) :
    (fetchCommand p w u).result s =
      match decode u.par p w with
      | .ok i => exec i u
      | .error c => .next (u.answer (respWord c.code 0 0 0 0)) := by
  unfold fetchCommand
  cases decode u.par p w <;> rfl

theorem fetchE_scan (hd : s.disp = .scan) : fetchPort .E s = some (fetchCallback { s with serving := .E }) := by
  simp [fetchPort, fetchE, hd]

theorem fetchCallback_some {v : State} {c : CbId} (h : chooseDue s = some (c, v)) :
    fetchCallback s = .run (callbackOf s.par c) v := by
  obtain ⟨n, rfl⟩ := chooseDue_leaves h
  rw [fetchCallback, h]

theorem fetchE_fires {v : State} {c : CbId} (hd : s.disp = .scan)
    (hc : chooseDue { s with serving := .E } = some (c, v)) :
    fetchPort .E s = some (.run (callbackOf s.par c) v) :=
  (fetchE_scan hd).trans (congrArg some (fetchCallback_some hc))

theorem candidates_eq_nil (h : ∀ c : CbId, c.val < s.par.ncb → due s s.advTarget c = false) :
    candidates s = [] := by
  have hempty : dueList s = [] := List.filter_eq_nil_iff.2 fun c hc => by
    obtain ⟨n, hn, rfl⟩ := List.mem_take_iff_getElem.1 hc
    rw [h _ (by simp only [List.getElem_finRange, Fin.val_cast]; omega)]
    exact Bool.false_ne_true
  simp [candidates, hempty]

/-- With nothing due the loop ends (40_agenda.md R133). -/
theorem fetchE_ends (hd : s.disp = .scan) (h : ∀ c : CbId, c.val < s.par.ncb → due s s.advTarget c = false) :
    fetchPort .E s = some (.reply (finishDispatch { s with serving := .E })) := by
  have hnone : candidates { s with serving := .E } = [] := candidates_eq_nil h
  rw [fetchE_scan hd, fetchCallback, chooseDue, hnone]

end

/-- Settles O6: at a contest it is the turn of `nextTurn`; a port favoured `k` more times gives way after
them. -/
theorem stepPicksEitherPort : Obligations.StepPicksEitherPort := by
  refine ⟨fun s x rx hx hE => ?_, fun _ _ _ hrun => served_in_the_end hrun, fun s hd ha hE hX => ?_⟩
  · have hX : hasWork s .X = true := by simp [hasWork, hx]
    obtain ⟨p, k, hturn⟩ : ∃ p k, nextTurn s.picks = (p, k) := ⟨_, _, rfl⟩
    refine ⟨p, k, fun q m hq => ?_, fun q hq => ?_, fun hp => ?_, fun hp => ?_⟩
    · rw [nextTurn_favoured hq] at hturn
      cases hturn
      exact ⟨rfl, rfl⟩
    · rw [nextTurn_spent hq] at hturn
      cases hturn
      exact otherPort_ne q
    · subst hp
      rw [step_of_contest hE hX hturn (fetchX_word hx), fetchCommand_result]
      rfl
    · subst hp
      refine ⟨fun w re hd ha hq => ?_, fun j hd ha => ?_, fun c v hd hc => ?_, fun hd hdue => ?_⟩
      · rw [step_of_contest hE hX hturn (fetchE_word hd ha hq), fetchCommand_result]
        rfl
      · rw [step_of_contest hE hX hturn (fetchE_block hd ha)]
        rfl
      · rw [step_of_contest hE hX hturn (fetchE_fires hd hc)]
        rfl
      · rw [step_of_contest hE hX hturn (fetchE_ends hd hdue)]
        rfl
  · have hnone : fetch s = .idle := by simp [fetch, fetchE, fetchX, hd, ha, hE, hX]
    rw [step_eq, hnone]
    rfl

end Sys2Proof.Machine
end

section
namespace Sys2Proof.Machine

/-! ### Consecutive addresses -/

/-- An address is 32 bits wide and wraps at the shorter of these and the address space. -/
theorem addrAt_toNat (p : Params) (a : Addr) (k : Nat) :
    (p.addrAt a k).toNat = (a.toNat + k) % 2 ^ min p.dmaAddrW 32 := by
  unfold Params.addrAt
  rw [BitVec.toNat_ofNat]
  rcases Nat.le_total p.dmaAddrW 32 with hw | hw
  · rw [Nat.min_eq_left hw]
    exact Nat.mod_eq_of_lt (lt_of_lt_of_le (Nat.mod_lt _ (Nat.two_pow_pos _)) (Nat.pow_le_pow_right (by decide) hw))
  · rw [Nat.min_eq_right hw]
    exact Nat.mod_mod_of_dvd _ (Nat.pow_dvd_pow 2 hw)

/-- The addresses the machine forms add up, at every width. -/
theorem addrAt_addrAt (p : Params) (a : Addr) (j k : Nat) : p.addrAt (p.addrAt a j) k = p.addrAt a (j + k) := by
  apply BitVec.eq_of_toNat_eq
  rw [addrAt_toNat, addrAt_toNat, addrAt_toNat, Nat.mod_add_mod, Nat.add_assoc]

/-- Addresses less than the address space apart differ. -/
theorem addrAt_ne (p : Params) (hp : p.dmaAddrW ≤ 32) (a : Addr) {j k : Nat} (hjk : j < k) (hk : k < 2 ^ p.dmaAddrW) :
    p.addrAt a j ≠ p.addrAt a k := by
  intro h
  have hmod : a.toNat + j ≡ a.toNat + k [MOD 2 ^ p.dmaAddrW] := by
    have hnat := congrArg BitVec.toNat h
    rwa [addrAt_toNat, addrAt_toNat, Nat.min_eq_left hp] at hnat
  have hj := Nat.ModEq.add_left_cancel' _ hmod
  exact absurd (Nat.ModEq.eq_of_lt_of_lt hj (by omega) hk) (by omega)

/-- A byte of a list written to memory reads back, when the list fits the address space. -/
theorem Memory.read_writeBytes (p : Params) (hp : p.dmaAddrW ≤ 32) (l : List Byte) (m : List Host.Cell) (a : Addr)
    (hm : Memory.wf p.dmaAddrW m = true) (hl : l.length ≤ 2 ^ p.dmaAddrW) (k : Nat) (hk : k < l.length) :
    Memory.read (Memory.writeBytes p m a l) (p.addrAt a k) = l[k] := by
  induction l generalizing m a k with
  | nil => exact absurd hk (Nat.not_lt_zero k)
  | cons b l ih =>
    have hwf := Memory.wf_write _ m (p.addrAt a 0) b (Params.addrAt_lt p a 0) hm
    simp only [List.length_cons] at hl hk
    cases k with
    | zero =>
      have hafter : ∀ j, j < l.length → p.addrAt a 0 ≠ p.addrAt (p.addrAt a 1) j := fun j hj => by
        rw [addrAt_addrAt]
        exact addrAt_ne p hp a (by omega) (by omega)
      rw [Memory.writeBytes, Memory.read_writeBytes_outside p hp l _ _ _ hafter]
      exact Memory.read_write_self _ m _ b hm
    | succ k =>
      have hnext : p.addrAt (p.addrAt a 1) k = p.addrAt a (k + 1) := by rw [addrAt_addrAt, Nat.add_comm]
      rw [Memory.writeBytes, ← hnext]
      exact ih _ _ hwf (by omega) k (by omega)

/-- The events of a list of bytes: one for each, at consecutive addresses. -/
theorem portEvents_eq_mapIdx (p : Params) (event : Addr → Byte → Event) (a : Addr) (l : List Byte) :
    portEvents p event a l = l.mapIdx fun k b => event (p.addrAt a k) b := by
  induction l generalizing a with
  | nil => rfl
  | cons b l ih => simp only [portEvents, ih, addrAt_addrAt, List.mapIdx_cons, Nat.add_comm 1]

theorem portEvents_half (p : Params) (event : Addr → Byte → Event) (a : Addr) (v : Vector Byte 16) :
    portEvents p event a v.toList = (List.finRange 16).map fun k => event (p.addrAt a k.val) v[k] := by
  rw [portEvents_eq_mapIdx]
  exact List.ext_getElem (by simp) fun k _ _ => by simp

/-! ### The DMA, byte by byte -/

theorem drqInAll_append (l : List Byte) (b : Byte) (s : State) : drqInAll (l ++ [b]) s = drqIn b (drqInAll l s) := by
  induction l generalizing s with
  | nil => rfl
  | cons c l ih => exact ih (drqIn c s)

theorem drqOutAll_succ (n : Nat) (s : State) :
    drqOutAll (n + 1) s = ((drqOutAll n s).1 ++ [(drqOut (drqOutAll n s).2).1], (drqOut (drqOutAll n s).2).2) := by
  induction n generalizing s with
  | zero => rfl
  | succ n ih =>
    rw [drqOutAll, ih]
    rfl

theorem otherHalf_eq (h : Fin 2) : otherHalf h = 1 - h := by
  fin_cases h <;> rfl

/-- Counting a half in full (43_dma.md R239). -/
theorem Dma.countHalf_eq (p : Params) (d : Dma) : d.countHalf p = { d with
    bct := if d.bct + 16 = p.dmaSectorBytes then 0 else d.bct + 16
    sct := if d.bct + 16 = p.dmaSectorBytes then d.sct - 1 else d.sct } := by
  unfold Dma.countHalf
  split <;> rfl

/-- The counters after a half: the address moved by 16, the other half in turn, 16 bytes counted. -/
def Dma.halfDone (p : Params) (d : Dma) : Dma :=
  { d with
    addr := p.addrAt d.addr 16
    sel := 1 - d.sel
    drq := false
    bct := if d.bct + 16 = p.dmaSectorBytes then 0 else d.bct + 16
    sct := if d.bct + 16 = p.dmaSectorBytes then d.sct - 1 else d.sct }

/-! ### A half given to the DMA -/

section
variable {s : State}

/-- A byte in the read direction with the counter above zero is accepted. -/
theorem drqIn_accepted (b : Byte) (hd : s.dma.mcr.getLsbD 8 = false) (hs : s.dma.sct ≠ 0) :
    drqIn b s = (addToFifo b s).modDma fun d => { d with drq := false } := by
  rcases drqIn_cases b s with ⟨hdir, _⟩ | ⟨_, hzero, _⟩ | ⟨_, _, h⟩
  · exact absurd (hd.symm.trans hdir) Bool.false_ne_true
  · exact absurd hzero hs
  · exact h

/-- A byte accepted before the last place of a half stays in the FIFO (43_dma.md R237, R238). -/
theorem drqIn_inner (b : Byte) (hd : s.dma.mcr.getLsbD 8 = false) (hs : s.dma.sct ≠ 0) (hi : s.dma.idx ≠ 15) :
    drqIn b s = { s with dma := { s.dma with
      drq := false
      idx := s.dma.idx + 1
      fifo := s.dma.fifo.set s.dma.sel ((s.dma.fifo[s.dma.sel]).set s.dma.idx b) } } := by
  have hfifo : addToFifo b s = (s.modDma (Dma.putByte b)).modDma fun d => { d with idx := d.idx + 1 } := if_neg hi
  rw [drqIn_accepted b hd hs, hfifo]
  rfl

/-- The byte accepted at the last place sends the half to memory (43_dma.md R238, R239). -/
theorem drqIn_last (b : Byte) (hd : s.dma.mcr.getLsbD 8 = false) (hs : s.dma.sct ≠ 0) (hi : s.dma.idx = 15)
    (v : Vector Byte 16) (hv : (s.dma.fifo[s.dma.sel]).set 15 b = v) :
    drqIn b s = { s with
      mem := Memory.writeBytes s.par s.mem s.dma.addr v.toList
      trace := s.trace ++ portEvents s.par .memw s.dma.addr v.toList
      dma := Dma.halfDone s.par { s.dma with fifo := s.dma.fifo.set s.dma.sel v, idx := 0 } } := by
  have hfifo : addToFifo b s =
      transferBytes ((s.modDma (Dma.putByte b)).modDma fun d => { d with idx := 0 }) := if_pos hi
  have hput : s.dma.putByte b = { s.dma with fifo := s.dma.fifo.set s.dma.sel v } := by
    subst hv
    simp [Dma.putByte, hi]
  rw [drqIn_accepted b hd hs, hfifo, transferBytes]
  simp only [State.modDma, hput, memWrite, Dma.countHalf_eq, otherHalf_eq, Dma.halfDone]
  simp

/-- The half `sel` with its first `k` bytes replaced by those of `bytes`. -/
def Dma.filled (d : Dma) (bytes : Vector Byte 16) (k : Nat) : Vector Byte 16 :=
  .ofFn fun j => if j.val < k then bytes[j] else (d.fifo[d.sel])[j]

theorem Dma.filled_set (d : Dma) (bytes : Vector Byte 16) (k : Nat) (hk : k < 16) :
    (d.filled bytes k).set k bytes[k] = d.filled bytes (k + 1) := by
  ext j hj
  by_cases hjk : k = j
  · simp [Dma.filled, hjk]
  · have hlt : j < k ↔ j < k + 1 := by omega
    simp [Dma.filled, hjk, hlt]

theorem Dma.filled_zero (d : Dma) (bytes : Vector Byte 16) : d.filled bytes 0 = d.fifo[d.sel] := by
  ext j hj
  simp [Dma.filled]

theorem Dma.filled_all (d : Dma) (bytes : Vector Byte 16) : d.filled bytes 16 = bytes := by
  ext j
  simp [Dma.filled]

/-- The FIFO index goes up by one with each byte. -/
theorem fifoIndex_succ (k : Nat) : Fin.ofNat 16 k + 1 = Fin.ofNat 16 (k + 1) := by
  simp [Fin.ext_iff, Fin.val_add]

/-- The state with the first `k` bytes of a half in the FIFO. -/
def State.filling (s : State) (bytes : Vector Byte 16) (k : Nat) : State :=
  { s with dma := { s.dma with
      fifo := s.dma.fifo.set s.dma.sel (s.dma.filled bytes k), idx := Fin.ofNat 16 k, drq := false } }

theorem drqIn_filling (bytes : Vector Byte 16) (hd : s.dma.mcr.getLsbD 8 = false) (hs : s.dma.sct ≠ 0) {k : Nat}
    (hk : k < 15) : drqIn bytes[k] (s.filling bytes k) = s.filling bytes (k + 1) := by
  have hidx : Fin.ofNat 16 k ≠ 15 := fun h => by
    have hval : k % 16 = 15 := congrArg Fin.val h
    omega
  have hmod : k % 16 = k := by omega
  have hset := s.dma.filled_set bytes k (by omega)
  rw [drqIn_inner (s := s.filling bytes k) _ hd hs hidx]
  simp only [State.filling, fifoIndex_succ]
  simp [hset, hmod]

/-- The bytes of a half but its last are kept in the FIFO. -/
theorem drqInAll_take (bytes : Vector Byte 16) (hd : s.dma.mcr.getLsbD 8 = false) (hs : s.dma.sct ≠ 0)
    (hi : s.dma.idx = 0) {k : Nat} (hk : k < 15) :
    drqInAll (bytes.toList.take (k + 1)) s = s.filling bytes (k + 1) := by
  induction k with
  | zero =>
    have htake : bytes.toList.take 1 = [bytes[0]] := by
      rw [List.take_succ_eq_append_getElem (by simp)]
      simp
    have hidx : s.dma.idx ≠ 15 := by rw [hi]; decide
    have hset : (s.dma.fifo[s.dma.sel]).set 0 bytes[0] = s.dma.filled bytes 1 := by
      rw [← s.dma.filled_set bytes 0 (by decide), Dma.filled_zero]
    rw [htake, drqInAll, drqInAll, drqIn_inner _ hd hs hidx]
    simp only [State.filling, ← hset, hi]
    rfl
  | succ k ih =>
    have htake : bytes.toList.take (k + 2) = bytes.toList.take (k + 1) ++ [bytes[k + 1]] := by
      rw [List.take_succ_eq_append_getElem (by simp; omega)]
      simp
    rw [htake, drqInAll_append, ih (by omega), drqIn_filling bytes hd hs hk]

/-- A half given to the DMA, in full (43_dma.md R237 to R239). -/
theorem drqInAll_half (bytes : Vector Byte 16) (hd : s.dma.mcr.getLsbD 8 = false) (hs : s.dma.sct ≠ 0)
    (hi : s.dma.idx = 0) : drqInAll bytes.toList s = { s with
      mem := Memory.writeBytes s.par s.mem s.dma.addr bytes.toList
      trace := s.trace ++ portEvents s.par .memw s.dma.addr bytes.toList
      dma := Dma.halfDone s.par { s.dma with fifo := s.dma.fifo.set s.dma.sel bytes } } := by
  have hsplit : bytes.toList = bytes.toList.take 15 ++ [bytes[15]] := by
    rw [← List.take_length (l := bytes.toList), Vector.length_toList, List.take_succ_eq_append_getElem (by simp)]
    simp
  have hset : (((s.filling bytes 15).dma.fifo)[(s.filling bytes 15).dma.sel]).set 15 bytes[15] = bytes := by
    have hall := s.dma.filled_set bytes 15 (by decide)
    rw [Dma.filled_all] at hall
    simpa [State.filling] using hall
  have hlast := drqIn_last (s := s.filling bytes 15) bytes[15] hd hs rfl bytes hset
  have hdrq : drqInAll bytes.toList s = drqIn bytes[15] (s.filling bytes 15) := by
    rw [← drqInAll_take bytes hd hs hi (by decide : 14 < 15), ← drqInAll_append, ← hsplit]
  have hfifo : (s.filling bytes 15).dma.fifo.set (s.filling bytes 15).dma.sel bytes = s.dma.fifo.set s.dma.sel bytes :=
    Vector.set_set _ s.dma.sel.isLt
  rw [hdrq, hlast, hfifo, ← hi]
  rfl

end

/-- Settles O33: fifteen bytes are kept in the FIFO, and the sixteenth sends the half to memory. -/
theorem halfReachesMemory : Obligations.HalfReachesMemory := by
  intro s bytes hp hm hd hs hi t
  have hw := hp.address.2
  have hroom : bytes.toList.length ≤ 2 ^ s.par.dmaAddrW := by
    rw [Vector.length_toList]
    exact Nat.pow_le_pow_right (by decide) hp.address.1 (n := 2)
  have ht : t = _ := drqInAll_half bytes hd hs hi
  rw [ht]
  refine ⟨fun k => ?_, fun a ha => ?_, ?_, rfl, rfl⟩
  · exact (Memory.read_writeBytes s.par hw bytes.toList s.mem s.dma.addr hm hroom k.val (by simp)).trans (by simp)
  · refine Memory.read_writeBytes_outside s.par hw bytes.toList s.mem s.dma.addr a fun k hk => ?_
    exact ha ⟨k, by simpa using hk⟩
  · exact congrArg _ (portEvents_half _ _ _ _)

/-! ### A half taken from the DMA -/

section
variable {s : State}

/-- The byte of memory that stands at a place of the half fetched. -/
theorem half_getElem (p : Params) (m : List Host.Cell) (a : Addr) (k : Nat) (hk : k < 16) :
    (Memory.half p m a)[k] = Memory.read m (p.addrAt a k) := by simp [Memory.half]

/-- A byte asked for in the write direction with the counter above zero is given. -/
theorem drqOut_accepted (hd : s.dma.mcr.getLsbD 8 = true) (hs : s.dma.sct ≠ 0) :
    drqOut s = (some (fillHalf s).dma.current,
      (fillHalf s).modDma fun d => { d.takeByte (fillHalf s).par with drq := false }) := by
  rcases drqOut_cases s with ⟨hdir, _⟩ | ⟨_, hzero, _⟩ | ⟨_, _, h⟩
  · exact absurd (hdir.symm.trans hd) Bool.false_ne_true
  · exact absurd hzero hs
  · exact h

/-- A byte taken before the last place of a half moves the index alone. -/
theorem Dma.takeByte_inner (p : Params) {d : Dma} {k : Nat} (hk : k < 15) (hi : d.idx = Fin.ofNat 16 k) :
    d.takeByte p = { d with idx := Fin.ofNat 16 (k + 1) } := by
  have hidx : d.idx ≠ 15 := fun h => by
    have hval : k % 16 = 15 := congrArg Fin.val (hi.symm.trans h)
    omega
  rw [Dma.takeByte, if_neg hidx, hi, fifoIndex_succ]

/-- The state with a half fetched and its first `k` bytes taken. -/
def State.drawing (s : State) (k : Nat) : State :=
  { s with
    trace := s.trace ++ portEvents s.par .memr s.dma.addr (Memory.half s.par s.mem s.dma.addr).toList
    dma := { s.dma with
      fifo := s.dma.fifo.set s.dma.sel (Memory.half s.par s.mem s.dma.addr)
      addr := s.par.addrAt s.dma.addr 16
      idx := Fin.ofNat 16 k
      drq := false } }

/-- The first byte of a half fetches it (43_dma.md R240). -/
theorem drqOut_first (hd : s.dma.mcr.getLsbD 8 = true) (hs : s.dma.sct ≠ 0) (hi : s.dma.idx = 0) :
    drqOut s = (some (Memory.read s.mem (s.par.addrAt s.dma.addr 0)), s.drawing 1) := by
  have hfill : fillHalf s = requestTransfer s := if_pos hi
  have hcurrent : (requestTransfer s).dma.current = Memory.read s.mem (s.par.addrAt s.dma.addr 0) := by
    rw [← half_getElem _ _ _ 0 (by decide)]
    simp [requestTransfer, Dma.current, hi]
  have hidx : (requestTransfer s).dma.idx = Fin.ofNat 16 0 := hi
  rw [drqOut_accepted hd hs, hfill, hcurrent, State.modDma, Dma.takeByte_inner _ (by decide) hidx]
  rfl

theorem drawing_current {k : Nat} (hk : k < 16) :
    (s.drawing k).dma.current = Memory.read s.mem (s.par.addrAt s.dma.addr k) := by
  rw [← half_getElem _ _ _ k hk]
  simp [State.drawing, Dma.current, Nat.mod_eq_of_lt hk]

theorem drqOut_drawing (hd : s.dma.mcr.getLsbD 8 = true) (hs : s.dma.sct ≠ 0) {k : Nat} (hk : k + 1 < 16) :
    drqOut (s.drawing (k + 1)) = (some (Memory.read s.mem (s.par.addrAt s.dma.addr (k + 1))),
      (s.drawing (k + 1)).modDma fun d => { d.takeByte s.par with drq := false }) := by
  have hidx : (s.drawing (k + 1)).dma.idx ≠ 0 := fun h => by
    have hval : (k + 1) % 16 = 0 := congrArg Fin.val h
    omega
  have hfill : fillHalf (s.drawing (k + 1)) = s.drawing (k + 1) := if_neg hidx
  rw [drqOut_accepted (s := s.drawing (k + 1)) hd hs, hfill, drawing_current hk]
  rfl

/-- The bytes of a half but its last are taken one by one. -/
theorem drqOutAll_drawing (hd : s.dma.mcr.getLsbD 8 = true) (hs : s.dma.sct ≠ 0) (hi : s.dma.idx = 0) {k : Nat}
    (hk : k < 15) : drqOutAll (k + 1) s =
      ((List.range (k + 1)).map fun j => some (Memory.read s.mem (s.par.addrAt s.dma.addr j)), s.drawing (k + 1)) := by
  induction k with
  | zero => simp [drqOutAll, drqOut_first hd hs hi]
  | succ k ih =>
    have hidx : (s.drawing (k + 1)).dma.idx = Fin.ofNat 16 (k + 1) := rfl
    rw [drqOutAll_succ, ih (by omega), drqOut_drawing hd hs (by omega), State.modDma, Dma.takeByte_inner _ hk hidx,
      List.range_succ (n := k + 1), List.map_append]
    rfl

/-- A half taken from the DMA, in full (43_dma.md R239, R240). -/
theorem drqOutAll_half (hd : s.dma.mcr.getLsbD 8 = true) (hs : s.dma.sct ≠ 0) (hi : s.dma.idx = 0) :
    drqOutAll 16 s =
      ((List.range 16).map fun k => some (Memory.read s.mem (s.par.addrAt s.dma.addr k)), { s with
        trace := s.trace ++ portEvents s.par .memr s.dma.addr (Memory.half s.par s.mem s.dma.addr).toList
        dma := Dma.halfDone s.par { s.dma with
          fifo := s.dma.fifo.set s.dma.sel (Memory.half s.par s.mem s.dma.addr) } }) := by
  have htake : (s.drawing 15).dma.takeByte s.par =
      Dma.countHalf s.par { (s.drawing 15).dma with idx := 0, sel := otherHalf s.dma.sel } := if_pos rfl
  rw [drqOutAll_succ, drqOutAll_drawing hd hs hi (by decide : 14 < 15), drqOut_drawing hd hs (by decide : 14 + 1 < 16),
    State.modDma, htake, Dma.countHalf_eq, otherHalf_eq, ← hi, List.range_succ (n := 15), List.map_append]
  rfl

end

/-- Settles O34: the first byte fetches the half, and the sixteenth counts it. -/
theorem halfComesFromMemory : Obligations.HalfComesFromMemory := by
  intro s hd hs hi t
  have hall := drqOutAll_half hd hs hi
  have ht : t = _ := congrArg Prod.snd hall
  rw [ht]
  refine ⟨congrArg Prod.fst hall, ?_, rfl, rfl⟩
  refine congrArg (s.trace ++ ·) ((portEvents_half _ _ _ _).trans ?_)
  simp only [Fin.getElem_fin, half_getElem]
  rw [← List.map_coe_finRange_eq_range, List.map_map]
  rfl

end Sys2Proof.Machine
end

section
namespace Sys2Proof.Machine

/-! ### Registers by their instruction and by the whole operation -/

theorem setWidth_setWidth_of_lt {n : Nat} {v : BitVec 32} (h : v.toNat < 2 ^ n) : (v.setWidth n).setWidth 32 = v := by
  apply BitVec.eq_of_toNat_eq
  have hv := v.isLt
  rw [BitVec.toNat_setWidth, BitVec.toNat_setWidth, Nat.mod_eq_of_lt h, Nat.mod_eq_of_lt hv]

/-- A value that a register accepts is within its width. -/
theorem lt_width_of_accepts {p : Params} {r : WriteReg} {v : BitVec 32} (h : r.accepts p v = true) :
    v.toNat < 2 ^ r.width p := by
  unfold WriteReg.accepts at h
  exact of_decide_eq_true (Bool.and_eq_true_iff.1 h).1

/-- The DMA's counter takes every value of its width (30_encoding.md R113). -/
theorem dmaSct_accepts_iff (p : Params) (v : BitVec 32) :
    WriteReg.dmaSct.accepts p v = true ↔ v.toNat < 2 ^ p.dmaSctW :=
  ⟨lt_width_of_accepts, fun h => Bool.and_eq_true_iff.2 ⟨decide_eq_true h, rfl⟩⟩

/-- A register's own instruction writes that register, a value that it accepts losing no bit. -/
theorem exec_writeInstr {r : WriteReg} {v : BitVec 32} {s : State} (now : Clock) (h : r.accepts s.par v = true) :
    exec (writeInstr r v now) s = writeRegister r v now s := by
  have hv := lt_width_of_accepts h
  cases r
  case engineCfg | acsibusByte | dmaMcr => exact congrArg (writeRegister _ · now s) (setWidth_setWidth_of_lt hv)
  case aciaCr i | aciaTdr i => fin_cases i <;> exact congrArg (writeRegister _ · now s) (setWidth_setWidth_of_lt hv)
  case dmaSct | dmaAddr | fddCpb => rfl

/-- REG_RD does what the instruction that its word decodes to does. -/
theorem exec_regRd_eq_decoded (unit : BitVec 8) (reg : BitVec 16) (now : Clock) (s : State) :
    exec (.regRd unit reg now) s = exec (decodeRegRd s.par unit reg now) s := by
  have hrun : exec (.regRd unit reg now) s = execRegRd unit reg now s := rfl
  unfold decodeRegRd
  cases hr : readRegAt s.par unit reg with
  | none => rfl
  | some r => rw [exec_readInstr, hrun, execRegRd, hr]

/-- REG_WR does what the instruction that its word decodes to does. -/
theorem exec_regWr_eq_decoded {unit : BitVec 8} {reg : BitVec 16} {v : BitVec 32} {now : Clock} {s : State} {i : Instr}
    (h : decodeRegWr s.par unit reg v now = .ok i) : exec (.regWr unit reg v now) s = exec i s := by
  have hrun : exec (.regWr unit reg v now) s = execRegWr unit reg v now s := rfl
  unfold decodeRegWr at h
  cases hr : writeRegAt unit reg with
  | none =>
    rw [hr] at h
    cases h
    rfl
  | some r =>
    rw [hr] at h
    obtain ⟨haccepts, rfl⟩ := (ifClear_ok _ _ _).1 h
    rw [exec_writeInstr now haccepts, hrun, execRegWr, hr]

theorem decode_regRd {p : Params} {unit : BitVec 8} {reg : BitVec 16} {now : Clock} {i : Instr}
    (h : decode p .E (Cmd.toWord ⟨0x30, unit, reg, 0, now⟩) = .ok i) : i = decodeRegRd p unit reg now := by
  rw [decode_toWord, decodeCmd_E p _ .regRd rfl] at h
  exact ((ifClear_ok _ _ _).1 h).2.symm

theorem decode_regWr {p : Params} {unit : BitVec 8} {reg : BitVec 16} {v : BitVec 32} {now : Clock} {i : Instr}
    (h : decode p .E (Cmd.toWord ⟨0x31, unit, reg, v, now⟩) = .ok i) : decodeRegWr p unit reg v now = .ok i := by
  rw [decode_toWord, decodeCmd_E p _ .regWr rfl] at h
  simp only [build] at h
  split at h
  · exact h
  · cases h

/-! ### Places with no register -/

section
variable {s : State} {unit : BitVec 8} {reg : BitVec 16}

theorem exec_regRd_none (now : Clock) (h : readRegAt s.par unit reg = none) :
    exec (.regRd unit reg now) s = noRegister unit s := by
  have hrun : exec (.regRd unit reg now) s = execRegRd unit reg now s := rfl
  rw [hrun, execRegRd, h]

theorem exec_regWr_none (v : BitVec 32) (now : Clock) (h : writeRegAt unit reg = none) :
    exec (.regWr unit reg v now) s = noRegister unit s := by
  have hrun : exec (.regWr unit reg v now) s = execRegWr unit reg v now s := rfl
  rw [hrun, execRegWr, h]

theorem deviceExists_iff {p : Params} (hp : p.Ok) (k : Nat) : deviceExists p k = true ↔ k < p.acsiNdev := by
  have hdev := hp.devices.2
  simp only [deviceExists, Bool.and_eq_true, decide_eq_true_eq]
  omega

/-- The units that exist are the eight of the chips and one for each device (30_encoding.md R110). -/
theorem unitExists_iff {p : Params} (hp : p.Ok) (unit : BitVec 8) :
    unitExists p unit = true ↔ unit.toNat < 8 + p.acsiNdev := by
  have hdev := deviceExists_iff hp (unit.toNat - 8)
  simp only [unitExists, Bool.or_eq_true, decide_eq_true_eq, hdev]
  omega

theorem noRegister_bad_unit (hp : s.par.Ok) (h : 8 + s.par.acsiNdev ≤ unit.toNat) :
    noRegister unit s = raise .badSel s :=
  if_neg fun he => by have := (unitExists_iff hp unit).1 he; omega

theorem noRegister_bad_index (hp : s.par.Ok) (h : unit.toNat < 8 + s.par.acsiNdev) :
    noRegister unit s = raise .badIdx s := if_pos ((unitExists_iff hp unit).2 h)

end

/-- The indices of the readable registers of a unit (30_encoding.md R111 to R116), as RegisterOperations lists them. -/
def readableIndices (unit : Nat) : List Nat :=
  if unit = 0 then [0, 1, 2, 3]
  else if unit ≤ 2 then [0, 1, 2, 3, 4, 5, 6]
  else if unit = 3 then [0, 1, 2, 3, 4, 5] ++ List.range' 16 32
  else if unit ≤ 5 then [0, 1, 2, 3, 4, 5, 6]
  else if unit = 6 then [1]
  else if unit = 7 then [0, 1]
  else [0, 1, 2, 3, 4, 5, 8, 9, 10, 11, 12, 13]

/-- The indices of the writable registers of a unit (30_encoding.md R111 to R115), as RegisterOperations lists them. -/
def writableIndices (unit : Nat) : List Nat :=
  if unit = 0 then [0]
  else if unit ≤ 2 then [0, 1]
  else if unit = 3 then [0, 1, 2]
  else if unit ≤ 5 then [3]
  else if unit = 7 then [0]
  else []

theorem engineReadReg_eq_none {n : Nat} (h : n ∉ readableIndices 0) : engineReadReg n = none := by
  unfold engineReadReg
  split
  case h_5 => rfl
  all_goals exact absurd h (by decide)

theorem aciaReadReg_eq_none (i : Fin 2) {n : Nat} (h : n ∉ readableIndices 1) : aciaReadReg i n = none := by
  unfold aciaReadReg
  split
  case h_8 => rfl
  all_goals exact absurd h (by decide)

theorem dmaReadReg_eq_none {n : Nat} (h : n ∉ readableIndices 3) : dmaReadReg n = none := by
  have hfifo : n < 16 ∨ 48 ≤ n := by
    simp [readableIndices] at h
    omega
  unfold dmaReadReg
  rw [dif_neg (by omega), dif_neg (by omega)]
  split
  case h_7 => rfl
  all_goals exact absurd h (by decide)

theorem fddReadReg_eq_none (d : Fin 2) {n : Nat} (h : n ∉ readableIndices 4) : fddReadReg d n = none := by
  unfold fddReadReg
  split
  case h_8 => rfl
  all_goals exact absurd h (by decide)

theorem fdd2ReadReg_eq_none {n : Nat} (h : n ∉ readableIndices 6) : fdd2ReadReg n = none := by
  unfold fdd2ReadReg
  split
  · exact absurd h (by decide)
  · rfl

theorem acsibusReadReg_eq_none {n : Nat} (h : n ∉ readableIndices 7) : acsibusReadReg n = none := by
  unfold acsibusReadReg
  split
  case h_3 => rfl
  all_goals exact absurd h (by decide)

theorem acsidevReadReg_eq_none (k : Dev) {n : Nat} (h : n ∉ readableIndices 8) : acsidevReadReg k n = none := by
  unfold acsidevReadReg
  split
  case h_13 => rfl
  all_goals exact absurd h (by decide)

theorem readRegAt_eq_none {p : Params} {unit : BitVec 8} {reg : BitVec 16}
    (h : reg.toNat ∉ readableIndices unit.toNat) : readRegAt p unit reg = none := by
  unfold readRegAt
  split <;> rename_i hu <;> rw [hu] at h
  case h_1 => exact engineReadReg_eq_none h
  case h_2 | h_3 => exact aciaReadReg_eq_none _ h
  case h_4 => exact dmaReadReg_eq_none h
  case h_5 | h_6 => exact fddReadReg_eq_none _ h
  case h_7 => exact fdd2ReadReg_eq_none h
  case h_8 => exact acsibusReadReg_eq_none h
  case h_9 k =>
    split
    · exact acsidevReadReg_eq_none _ h
    · rfl

theorem writeRegAt_eq_none {unit : BitVec 8} {reg : BitVec 16} (h : reg.toNat ∉ writableIndices unit.toNat) :
    writeRegAt unit reg = none := by
  unfold writeRegAt
  split
  case h_12 => rfl
  all_goals
    rename_i hu hr
    exact absurd h (by simp [writableIndices, hu, hr])

/-- No unit beyond the devices' has a readable register. -/
theorem readRegAt_bad_unit {p : Params} (hp : p.Ok) {unit : BitVec 8} {reg : BitVec 16}
    (h : 8 + p.acsiNdev ≤ unit.toNat) : readRegAt p unit reg = none := by
  unfold readRegAt
  split
  case h_9 k hu =>
    have hdev : ¬ deviceExists p k = true := fun he => by
      have hlt := (deviceExists_iff hp k).1 he
      omega
    exact if_neg hdev
  all_goals omega

/-- No unit of a device has a writable register. -/
theorem writeRegAt_bad_unit {unit : BitVec 8} {reg : BitVec 16} (h : 8 ≤ unit.toNat) :
    writeRegAt unit reg = none := by
  have hnone : writableIndices unit.toNat = [] := by
    unfold writableIndices
    repeat rw [if_neg (by omega)]
  exact writeRegAt_eq_none (hnone ▸ List.not_mem_nil)

/-- Settles O57: the operation and the register's instruction share the register's rule, and elsewhere there is none. -/
theorem registerOperations : Obligations.RegisterOperations := by
  refine ⟨fun s unit reg v now i => ⟨fun h => ?_, fun h => ?_⟩, fun s unit reg v now hp => ⟨fun hu => ?_,
    fun hu hr => ?_, fun hu hr => ?_, fun hnow => ⟨?_, fun hv => ?_⟩, fun hv => ?_⟩⟩
  · rw [decode_regRd h]
    exact exec_regRd_eq_decoded unit reg now s
  · exact exec_regWr_eq_decoded (decode_regWr h)
  · have hnone := noRegister_bad_unit hp hu
    exact ⟨(exec_regRd_none now (readRegAt_bad_unit hp hu)).trans hnone,
      (exec_regWr_none v now (writeRegAt_bad_unit (by omega))).trans hnone⟩
  · exact (exec_regRd_none now (readRegAt_eq_none hr)).trans (noRegister_bad_index hp hu)
  · exact (exec_regWr_none v now (writeRegAt_eq_none hr)).trans (noRegister_bad_index hp hu)
  · exact readRegister_ok hnow .engineNow
  · exact (if_pos ((dmaSct_accepts_iff _ v).2 hv)).trans (timed_ok hnow)
  · exact if_neg fun h => absurd ((dmaSct_accepts_iff _ v).1 h) (by omega)

end Sys2Proof.Machine
end

section
namespace Sys2Proof.Machine

/-! ### The checks on an identity -/

section
variable {cb : BitVec 8} {s : State} {body : CbId → Result}

theorem external_ok (c : CbId) (hc : c.val = cb.toNat) (hn : c.val < s.par.ncb) (he : s.par.ncbInt ≤ c.val) :
    external cb s body = body c :=
  (select_ok c hn hc.symm).trans (if_neg (by omega))

theorem external_bad (h : s.par.ncb ≤ cb.toNat) : external cb s body = raise .badSel s := select_bad h

theorem external_internal (hi : cb.toNat < s.par.ncbInt) (hn : cb.toNat < s.par.ncb) :
    external cb s body = raise .priv s :=
  (select_ok (m := 256) ⟨cb.toNat, cb.isLt⟩ hn rfl).trans (if_pos hi)

end

/-- Settles O13: each command is its case of the checks on an identity, and then its own body. -/
theorem slotCommands : Obligations.SlotCommands := by
  refine ⟨fun s cb c param delay hc hn he => external_ok c hc hn he, fun s cb c hc hn he => ?_,
    fun s cb c hc hn => ?_, fun s cb param delay h => ⟨external_bad h, external_bad h, select_bad h⟩,
    fun s cb param delay hi hn => ⟨external_internal hi hn, external_internal hi hn⟩⟩
  · refine (external_ok c hc hn he).trans ?_
    cases s.ag[c] <;> rfl
  · refine (select_ok c hn hc.symm).trans ?_
    cases s.ag[c] <;> rfl

/-! ### Refused words -/

/-- A refused word, alone at the head of its port, is answered there. -/
theorem step_of_refused {s : State} {p : Port} {w : Word128} {e : ErrCode}
    (hw : fetchPort p s = some (fetchCommand p w { s with serving := p })) (ho : hasWork s (otherPort p) = false)
    (he : decode s.par p w = .error e) :
    step s = .next (State.answer { s with serving := p } (respWord e.code 0 0 0 0)) := by
  rw [step_of_alone hw ho, fetchCommand_result]
  simp only [he]

/-- Settles O7: a refused word alone on its port is that port's work, and the answer takes it off the queue. -/
theorem refusedWordIsOnlyAnswered : Obligations.RefusedWordIsOnlyAnswered := by
  refine ⟨fun s w rest e hd ha hE hX he => ?_, fun s w rest e hd ha hE hX he => ?_⟩
  · have hidle : hasWork s .X = false := by simp [hasWork, hX]
    rw [step_of_refused (fetchE_word hd ha hE) hidle he]
    simp [State.answer, PortIO.give, hE]
  · have hidle : hasWork s .E = false := by simp [hasWork, hd, ha, hE]
    rw [step_of_refused (fetchX_word hX) hidle he]
    simp [State.answer, PortIO.give, hX]

/-- Settles O4: each word is evaluated. -/
theorem sampleWordsDecode : Obligations.SampleWordsDecode := by
  refine ⟨?_, ?_, ?_, ?_, ?_, ?_, ?_, ?_⟩ <;> decide

/-! ### Rights and refusals -/

theorem onPortX_iff (op : Op) : op.onPortX = true ↔ op ∈ [Op.nop, .cbCreate, .cbDestroy, .cbReset, .cbAddbyte,
    .cbAddbytes, .cbReadbyte, .cbNextbyte, .cbArebytes, .cbCount] := by
  cases op <;> decide

theorem decodeRegWr_error {p : Params} {unit : BitVec 8} {reg : BitVec 16} {v : BitVec 32} {now : Clock} {e : ErrCode}
    (h : decodeRegWr p unit reg v now = .error e) : e = .reserved := by
  unfold decodeRegWr at h
  split at h
  · exact ((ifClear_error _ _ _).1 h).2
  · cases h

/-- An operation's own checks refuse with ERR_RESERVED alone (60_exceptions.md R352, step 3). -/
theorem build_error {p : Params} {op : Op} {c : Cmd} {e : ErrCode} (h : build p op c = .error e) : e = .reserved := by
  cases op
  case regWr =>
    simp only [build] at h
    split at h
    · exact decodeRegWr_error h
    · cases h
      rfl
  all_goals exact ((ifClear_error _ _ _).1 h).2

section
variable {p : Params} {w : Word128} {op : Op}

theorem decode_unknown {port : Port} (h : opOf (Cmd.ofWord w).op = none) : decode p port w = .error .illegalOp := by
  rw [decode, decodeCmd, h]

theorem decode_E (h : opOf (Cmd.ofWord w).op = some op) : decode p .E w = build p op (Cmd.ofWord w) :=
  decodeCmd_E p _ op h

/-- Port X decodes the operations it may issue as port E does, and no other. -/
theorem decode_X (h : opOf (Cmd.ofWord w).op = some op) :
    decode p .X w = if op.onPortX = true then decode p .E w else .error .priv := by
  rw [decode_E h, decode, decodeCmd, h]
  cases hx : op.onPortX <;> simp [hx]

end

/-- Settles O3: the rights are those of `Op.onPortX`, and what is left to refuse on port E is a bit that must be zero. -/
theorem portRights : Obligations.PortRights := by
  refine ⟨fun p port w h => decode_unknown h, fun p w op h hx => ?_, fun p w op h hx => ?_, fun p w e h => ?_⟩
  · rw [decode_X h, if_pos ((onPortX_iff op).2 hx)]
  · rw [decode_X h, if_neg (mt (onPortX_iff op).1 hx)]
  · cases hop : opOf (Cmd.ofWord w).op with
    | none =>
      rw [decode_unknown hop] at h
      cases h
      exact .inl rfl
    | some op =>
      rw [decode_E hop] at h
      exact .inr (build_error h)

end Sys2Proof.Machine
end

section
namespace Sys2Proof.Machine

/-! ### What stands for an encoding -/

theorem wf_iff {p : Params} {i : Instr} :
    i.wf p = true ↔ i.fieldsFit p = true ∧ ∀ now, instrTime i = some now → now.toNat < 2 ^ p.cw := by
  unfold Instr.wf
  cases instrTime i <;> simp

/-- The time of a well-formed instruction fits. -/
theorem nowFits_of_wf {p : Params} {i : Instr} {now : Clock} (h : i.wf p = true) (ht : instrTime i = some now) :
    nowFits p now = true := (nowFits_iff _ _).2 ((wf_iff.1 h).2 now ht)

/-! ### Operations by their code -/

/-- The OP field of an operation (30_encoding.md R105). -/
def opCode : Op → BitVec 8
  | .nop => 0x00
  | .reset => 0x01
  | .advance => 0x10
  | .schedule => 0x11
  | .cancel => 0x12
  | .fireAck => 0x13
  | .agQuery => 0x14
  | .cbCreate => 0x20
  | .cbDestroy => 0x21
  | .cbReset => 0x22
  | .cbAddbyte => 0x23
  | .cbAddbytes => 0x24
  | .cbReadbyte => 0x25
  | .cbNextbyte => 0x26
  | .cbArebytes => 0x27
  | .cbCount => 0x28
  | .regRd => 0x30
  | .regWr => 0x31
  | .aciaRxbyte => 0x40
  | .fddMount => 0x41
  | .fddUnmount => 0x42
  | .fddMotor => 0x43
  | .fddStep => 0x44
  | .fddRead => 0x45
  | .fddWrite => 0x46
  | .fddConv => 0x47
  | .acsiAttach => 0x48
  | .acsiDetach => 0x49

/-- The opcode map gives an operation for its own code alone. -/
theorem opOf_eq_some {b : BitVec 8} {op : Op} (h : opOf b = some op) : b = opCode op := by
  unfold opOf at h
  split at h <;> cases h <;> exact BitVec.eq_of_toNat_eq ‹_›

/-- A word whose fields pass its operation's checks decodes to the instruction built from them. -/
theorem decodeRaw_command {p : Params} {code sel : BitVec 8} {idx : BitVec 16} {param : BitVec 32} {time : BitVec 64}
    {o : Op} {i : Instr} (ho : opOf code = some o) (hb : build p o ⟨code, sel, idx, param, time⟩ = .ok i) :
    decodeRaw p (command code sel idx param time) = some i := by
  have hd : decode p .E (Cmd.toWord ⟨code, sel, idx, param, time⟩) = .ok i := by
    rw [decode_toWord, decodeCmd_E p _ o ho, hb]
  exact congrArg Except.toOption hd

/-! ### Fields that hold their operand -/

theorem setWidth_back {n : Nat} (v : BitVec n) (h : n ≤ 32) : (v.setWidth 32).setWidth n = v := by
  rw [BitVec.setWidth_setWidth_of_le v h, BitVec.setWidth_eq]

/-- An operand widened to PARAM keeps its value. -/
theorem toNat_setWidth_lt {n : Nat} (v : BitVec n) (h : n ≤ 32) : (v.setWidth 32).toNat < 2 ^ n := by
  rw [BitVec.toNat_setWidth_of_le h]
  exact v.isLt

theorem bit0_ofBit0 (b : Bool) : bit0 (ofBit0 b) = b := by cases b <;> rfl

theorem ofBit0_lt (b : Bool) : (ofBit0 b).toNat < 2 := by cases b <;> decide

theorem ofBit0_bit0 {v : BitVec 32} (h : v.toNat < 2) : ofBit0 (bit0 v) = v := by
  obtain rfl | rfl : v = 0 ∨ v = 1 := by
    have : v.toNat = 0 ∨ v.toNat = 1 := by omega
    exact this.imp BitVec.eq_of_toNat_eq BitVec.eq_of_toNat_eq
  · rfl
  · rfl

/-- The two bits of FDD_MOUNT (30_encoding.md R107). -/
theorem mountBits_back {v : BitVec 32} (h : v.toNat < 2 ^ 2) :
    (ofBit0 (bit0 v) ||| if v.getLsbD 1 then 2 else 0) = v := by
  obtain rfl | rfl | rfl | rfl : v = 0 ∨ v = 1 ∨ v = 2 ∨ v = 3 := by
    have : v.toNat = 0 ∨ v.toNat = 1 ∨ v.toNat = 2 ∨ v.toNat = 3 := by omega
    exact this.imp BitVec.eq_of_toNat_eq
      (.imp BitVec.eq_of_toNat_eq (.imp BitVec.eq_of_toNat_eq BitVec.eq_of_toNat_eq))
  all_goals rfl

theorem mountBits_read (singleSided ghost : Bool) :
    (ofBit0 singleSided ||| if ghost then 2 else 0).toNat < 2 ^ 2 ∧
      bit0 (ofBit0 singleSided ||| if ghost then 2 else 0) = singleSided ∧
      (ofBit0 singleSided ||| if ghost then 2 else 0).getLsbD 1 = ghost := by
  revert singleSided ghost
  decide

theorem burstOf_extract (burst : BitVec 96) : burstOf (burst.extractLsb' 64 32) (burst.extractLsb' 0 64) = burst := by
  have h := burst.isLt
  apply BitVec.eq_of_toNat_eq
  simp only [burstOf, BitVec.toNat_cast, BitVec.toNat_append, BitVec.extractLsb'_toNat]
  rw [← Nat.shiftLeft_add_eq_or_of_lt (Nat.mod_lt _ (by decide))]
  simp only [Nat.shiftRight_eq_div_pow, Nat.shiftLeft_eq]
  omega

theorem extract_burstOf (param : BitVec 32) (time : BitVec 64) :
    (burstOf param time).extractLsb' 64 32 = param ∧ (burstOf param time).extractLsb' 0 64 = time := by
  have hp := param.isLt
  have ht := time.isLt
  have hb : (burstOf param time).toNat = param.toNat * 2 ^ 64 + time.toNat := by
    simp only [burstOf, BitVec.toNat_cast, BitVec.toNat_append]
    rw [← Nat.shiftLeft_add_eq_or_of_lt ht, Nat.shiftLeft_eq]
  constructor <;> apply BitVec.eq_of_toNat_eq <;>
    simp only [BitVec.extractLsb'_toNat, hb, Nat.shiftRight_eq_div_pow] <;> omega

/-! #### A delay -/

section
variable {p : Params} (hp : p.Ok) (d : Clock)
include hp

/-- TIME is the delay modulo `2^CW`, its sign extension above. -/
theorem timeOfDelay_toNat_bmod : ((timeOfDelay p d).toNat : Int).bmod (2 ^ p.cw) = (d.toNat : Int).bmod (2 ^ p.cw) := by
  have hdvd : ((2 ^ p.cw : Nat) : Int) ∣ ((2 ^ 64 : Nat) : Int) := Int.natCast_dvd_natCast.2 (two_pow_cw_dvd hp.cw.2)
  rw [timeOfDelay, BitVec.toNat_ofInt, Int.toNat_of_nonneg (Int.emod_nonneg _ (by decide)), ← Int.emod_bmod,
    Int.emod_emod_of_dvd _ hdvd, Int.emod_bmod, Int.bmod_bmod]

theorem timeOfDelay_toInt : (timeOfDelay p d).toInt = (d.toNat : Int).bmod (2 ^ p.cw) := by
  have hle : (2 ^ p.cw : Nat) ≤ 2 ^ 64 := Nat.le_of_dvd (by decide) (two_pow_cw_dvd hp.cw.2)
  have hpos := Nat.two_pow_pos p.cw
  have hlow := Int.le_bmod (x := (d.toNat : Int)) hpos
  have hhigh := Int.bmod_lt (x := (d.toNat : Int)) hpos
  rw [timeOfDelay, BitVec.toInt_ofInt]
  exact Int.bmod_eq_of_le (by omega) (by omega)

theorem delayFits_timeOfDelay : delayFits p (timeOfDelay p d) = true := by
  rw [delayFits_iff, timeOfDelay_toNat_bmod hp, timeOfDelay_toInt hp]

theorem delayOf_timeOfDelay (hd : d.toNat < 2 ^ p.cw) : delayOf p (timeOfDelay p d) = d := by
  have hbmod := congrArg (· % ((2 ^ p.cw : Nat) : Int)) (timeOfDelay_toNat_bmod hp d)
  simp only [Int.bmod_emod] at hbmod
  have hmod : (timeOfDelay p d).toNat % 2 ^ p.cw = d.toNat := by
    rw [← Nat.mod_eq_of_lt hd]
    exact_mod_cast hbmod
  rw [delayOf, hmod, BitVec.ofNat_toNat, BitVec.setWidth_eq]

end

/-! ### Registers by unit and index -/

/-- A register's own instruction is encoded as the read of a place, a unit and an index, and its operands fit. -/
def ReadsAt (p : Params) (unit reg : Nat) (r : ReadReg) : Prop :=
  ∀ now, encode p (readInstr r now) = regRdWord unit reg now ∧ (readInstr r now).fieldsFit p = true

section
variable {p : Params} {n : Nat} {r : ReadReg}

theorem engineReadReg_readsAt (h : engineReadReg n = some r) : ReadsAt p 0 n r := by
  unfold engineReadReg at h
  split at h <;> cases h <;> exact fun _ => ⟨rfl, rfl⟩

theorem aciaReadReg_readsAt {i : Fin 2} (h : aciaReadReg i n = some r) : ReadsAt p (1 + i.val) n r := by
  unfold aciaReadReg at h
  split at h <;> cases h <;> intro now <;> fin_cases i <;> exact ⟨rfl, rfl⟩

theorem dmaReadReg_readsAt (h : dmaReadReg n = some r) : ReadsAt p 3 n r := by
  unfold dmaReadReg at h
  split at h
  · rename_i hn
    cases h
    exact fun now => ⟨congrArg (regRdWord 3 · now) (by dsimp only; omega), rfl⟩
  · split at h
    · rename_i hn
      cases h
      exact fun now => ⟨congrArg (regRdWord 3 · now) (by dsimp only; omega), rfl⟩
    · split at h <;> cases h <;> exact fun _ => ⟨rfl, rfl⟩

theorem fddReadReg_readsAt {d : Fin 2} (h : fddReadReg d n = some r) : ReadsAt p (4 + d.val) n r := by
  unfold fddReadReg at h
  split at h <;> cases h <;> intro now <;> fin_cases d <;> exact ⟨rfl, rfl⟩

theorem fdd2ReadReg_readsAt (h : fdd2ReadReg n = some r) : ReadsAt p 6 n r := by
  unfold fdd2ReadReg at h
  split at h <;> cases h
  exact fun _ => ⟨rfl, rfl⟩

theorem acsibusReadReg_readsAt (h : acsibusReadReg n = some r) : ReadsAt p 7 n r := by
  unfold acsibusReadReg at h
  split at h <;> cases h <;> exact fun _ => ⟨rfl, rfl⟩

theorem acsidevReadReg_readsAt {k : Dev} (hk : k.val < p.acsiNdev) (h : acsidevReadReg k n = some r) :
    ReadsAt p (8 + k.val) n r := by
  unfold acsidevReadReg at h
  split at h <;> cases h <;> exact fun _ => ⟨rfl, decide_eq_true hk⟩

theorem dmaReadReg_fifo0 (j : Fin 16) : dmaReadReg (16 + j.val) = some (.dmaFifo 0 j) := by
  unfold dmaReadReg
  rw [dif_pos (by omega)]
  simp

theorem dmaReadReg_fifo1 (j : Fin 16) : dmaReadReg (32 + j.val) = some (.dmaFifo 1 j) := by
  unfold dmaReadReg
  rw [dif_neg (by omega), dif_pos (by omega)]
  simp

end

/-- A readable register's instruction reads the place that names it (30_encoding.md R110 to R116). -/
theorem readRegAt_readsAt {p : Params} {unit : BitVec 8} {reg : BitVec 16} {r : ReadReg}
    (h : readRegAt p unit reg = some r) : ReadsAt p unit.toNat reg.toNat r := by
  unfold readRegAt at h
  split at h <;> rename_i hu <;> rw [hu]
  case h_1 => exact engineReadReg_readsAt h
  case h_2 => exact aciaReadReg_readsAt (i := 0) h
  case h_3 => exact aciaReadReg_readsAt (i := 1) h
  case h_4 => exact dmaReadReg_readsAt h
  case h_5 => exact fddReadReg_readsAt (d := 0) h
  case h_6 => exact fddReadReg_readsAt (d := 1) h
  case h_7 => exact fdd2ReadReg_readsAt h
  case h_8 => exact acsibusReadReg_readsAt h
  case h_9 k =>
    split at h
    · rename_i hk
      obtain ⟨hdev, hlt⟩ : k < p.acsiNdev ∧ k < 8 := by simpa [deviceExists] using hk
      have hval : (Fin.ofNat 8 k).val = k := Nat.mod_eq_of_lt hlt
      have := acsidevReadReg_readsAt (by rwa [hval]) h
      rwa [hval, Nat.add_comm] at this
    · cases h

/-- The registers of a device (30_encoding.md R116). -/
theorem readRegAt_device {p : Params} {k : Dev} (hk : k.val < p.acsiNdev) (reg : BitVec 16) :
    readRegAt p (BitVec.ofNat 8 (8 + k.val)) reg = acsidevReadReg k reg.toNat := by
  have hlt : k.val < 8 := k.isLt
  have hu : (BitVec.ofNat 8 (8 + k.val)).toNat = k.val + 8 := by
    rw [BitVec.toNat_ofNat]
    omega
  have hdev : deviceExists p k.val = true := by simp [deviceExists, hk, hlt]
  have hself : Fin.ofNat 8 k.val = k := Fin.ext (Nat.mod_eq_of_lt hlt)
  unfold readRegAt
  rw [hu]
  simp only [hdev, hself, if_true]

theorem readRegAt_fifo0 (p : Params) (j : Fin 16) :
    readRegAt p (BitVec.ofNat 8 3) (BitVec.ofNat 16 (16 + j.val)) = some (.dmaFifo 0 j) := by
  have hval : (BitVec.ofNat 16 (16 + j.val)).toNat = 16 + j.val := Nat.mod_eq_of_lt (by omega)
  exact (congrArg dmaReadReg hval).trans (dmaReadReg_fifo0 j)

theorem readRegAt_fifo1 (p : Params) (j : Fin 16) :
    readRegAt p (BitVec.ofNat 8 3) (BitVec.ofNat 16 (32 + j.val)) = some (.dmaFifo 1 j) := by
  have hval : (BitVec.ofNat 16 (32 + j.val)).toNat = 32 + j.val := Nat.mod_eq_of_lt (by omega)
  exact (congrArg dmaReadReg hval).trans (dmaReadReg_fifo1 j)

/-- A value within a register's width is accepted, but for CFG (20_memory.md R71). -/
theorem accepts_of_lt {p : Params} {r : WriteReg} {v : BitVec 32} (hr : r ≠ .engineCfg) (h : v.toNat < 2 ^ r.width p) :
    r.accepts p v = true := by
  simp [WriteReg.accepts, h, hr]

/-- CFG accepts 0 and 1 alone (40_agenda.md R145). -/
theorem cfg_lt_of_accepts {p : Params} {v : BitVec 32} (h : WriteReg.engineCfg.accepts p v = true) :
    (v.setWidth 8).toNat < 2 := by
  have hv : v.toNat < 2 := by simpa [WriteReg.accepts] using (Bool.and_eq_true_iff.1 h).2
  rw [BitVec.toNat_setWidth]
  omega

/-- A writable register's instruction writes the place that names it (30_encoding.md R111 to R115), and a value that the
register accepts loses no bit. -/
theorem writeRegAt_writesAt {p : Params} {unit : BitVec 8} {reg : BitVec 16} {r : WriteReg} {v : BitVec 32}
    (h : writeRegAt unit reg = some r) (hv : r.accepts p v = true) (now : Clock) :
    encode p (writeInstr r v now) = regWrWord unit.toNat reg.toNat v now ∧ (writeInstr r v now).fieldsFit p = true := by
  have hw := lt_width_of_accepts hv
  unfold writeRegAt at h
  split at h <;> rename_i hu hr <;> cases h <;> rw [hu, hr]
  case h_1 => exact ⟨congrArg (regWrWord 0 0 · now) (setWidth_setWidth_of_lt hw), decide_eq_true (cfg_lt_of_accepts hv)⟩
  case h_6 => exact ⟨congrArg (regWrWord 3 0 · now) (setWidth_setWidth_of_lt hw), rfl⟩
  case h_7 | h_8 => exact ⟨rfl, decide_eq_true hw⟩
  case h_9 | h_10 => exact ⟨rfl, rfl⟩
  all_goals exact ⟨congrArg (regWrWord _ _ · now) (setWidth_setWidth_of_lt (n := 8) hw), rfl⟩

/-! ### A register's word decodes to its instruction -/

section
variable {p : Params} {unit reg : Nat} {now : Clock} {i : Instr} (ht : i.wf p = true ∧ instrTime i = some now)
include ht

theorem decodeRaw_regRdWord {r : ReadReg} (hr : readRegAt p (BitVec.ofNat 8 unit) (BitVec.ofNat 16 reg) = some r)
    (hi : readInstr r now = i) : decodeRaw p (regRdWord unit reg now) = some i := by
  refine decodeRaw_command (o := .regRd) rfl ((ifClear_ok _ _ _).2 ⟨?_, ?_⟩)
  · simp [nowFits_of_wf ht.1 ht.2]
  · simp [decodeRegRd, hr, hi]

theorem decodeRaw_regWrWord {r : WriteReg} {v : BitVec 32}
    (hr : writeRegAt (BitVec.ofNat 8 unit) (BitVec.ofNat 16 reg) = some r) (hv : r.accepts p v = true)
    (hi : writeInstr r v now = i) : decodeRaw p (regWrWord unit reg v now) = some i := by
  refine decodeRaw_command (o := .regWr) rfl ?_
  simp [build, decodeRegWr, ifClear, nowFits_of_wf ht.1 ht.2, hr, hv, hi]

end

end Sys2Proof.Machine
end

section
namespace Sys2Proof.Machine

/-! ### Accepted commands -/

/-- What a REG_RD word decodes to is encoded as that word again. -/
theorem decodeRegRd_word {p : Params} (unit : BitVec 8) (reg : BitVec 16) (now : Clock) :
    (decodeRegRd p unit reg now).fieldsFit p = true ∧
      encode p (decodeRegRd p unit reg now) = command 0x30 unit reg 0 now := by
  unfold decodeRegRd
  cases hr : readRegAt p unit reg with
  | none => exact ⟨Option.isNone_iff_eq_none.2 hr, rfl⟩
  | some r =>
    obtain ⟨henc, hfit⟩ := readRegAt_readsAt hr now
    refine ⟨hfit, henc.trans ?_⟩
    simp [regRdWord]

/-- What an accepted REG_WR word decodes to is encoded as that word again. -/
theorem decodeRegWr_word {p : Params} {unit : BitVec 8} {reg : BitVec 16} {v : BitVec 32} {now : Clock} {i : Instr}
    (h : decodeRegWr p unit reg v now = .ok i) :
    i.fieldsFit p = true ∧ encode p i = command 0x31 unit reg v now := by
  unfold decodeRegWr at h
  cases hr : writeRegAt unit reg with
  | none =>
    rw [hr] at h
    cases h
    exact ⟨Option.isNone_iff_eq_none.2 hr, rfl⟩
  | some r =>
    rw [hr] at h
    obtain ⟨hv, rfl⟩ := (ifClear_ok _ _ _).1 h
    obtain ⟨henc, hfit⟩ := writeRegAt_writesAt hr hv now
    refine ⟨hfit, henc.trans ?_⟩
    simp [regWrWord]

/-- What an operation's checks accept fits its fields and is encoded in them again: no bit is dropped. -/
theorem build_word {p : Params} {op : Op} {code sel : BitVec 8} {idx : BitVec 16} {param : BitVec 32} {time : BitVec 64}
    {i : Instr} (h : build p op ⟨code, sel, idx, param, time⟩ = .ok i) :
    i.fieldsFit p = true ∧ encode p i = command (opCode op) sel idx param time := by
  cases op
  case regWr =>
    simp only [build] at h
    split at h
    · exact decodeRegWr_word h
    · cases h
  all_goals
    obtain ⟨hclear, rfl⟩ := (ifClear_ok _ _ _).1 h
    simp only [Bool.and_eq_true, beq_iff_eq, decide_eq_true_eq] at hclear
  case nop | reset =>
    obtain ⟨⟨⟨rfl, rfl⟩, rfl⟩, rfl⟩ := hclear
    exact ⟨rfl, rfl⟩
  case cancel | fireAck | agQuery | cbDestroy | cbReset | cbReadbyte | cbNextbyte | cbArebytes | cbCount | fddUnmount
      | acsiDetach =>
    obtain ⟨⟨rfl, rfl⟩, rfl⟩ := hclear
    exact ⟨rfl, rfl⟩
  case advance =>
    obtain ⟨⟨⟨rfl, rfl⟩, rfl⟩, _⟩ := hclear
    exact ⟨rfl, rfl⟩
  case schedule =>
    obtain ⟨⟨rfl, hparam⟩, hdelay⟩ := hclear
    refine ⟨Bool.and_eq_true_iff.2 ⟨hparam, decide_eq_true (delayOf_lt p time)⟩, ?_⟩
    exact congrArg (command 0x11 sel 0 param) (timeOfDelay_delayOf p time hdelay)
  case cbCreate =>
    obtain ⟨rfl, rfl⟩ := hclear
    exact ⟨rfl, rfl⟩
  case cbAddbyte =>
    obtain ⟨⟨rfl, hbyte⟩, rfl⟩ := hclear
    exact ⟨rfl, congrArg (command 0x23 sel 0 · 0) (setWidth_setWidth_of_lt hbyte)⟩
  case cbAddbytes =>
    obtain ⟨hparam, htime⟩ := extract_burstOf param time
    exact ⟨hclear, congrArg₂ (command 0x24 sel idx) hparam htime⟩
  case regRd =>
    obtain ⟨rfl, _⟩ := hclear
    exact decodeRegRd_word sel idx time
  case aciaRxbyte =>
    obtain ⟨⟨rfl, hbyte⟩, _⟩ := hclear
    exact ⟨rfl, congrArg (command 0x40 sel 0 · time) (setWidth_setWidth_of_lt hbyte)⟩
  case fddMount =>
    obtain ⟨hbits, rfl⟩ := hclear
    exact ⟨rfl, congrArg (command 0x41 sel idx · 0) (mountBits_back hbits)⟩
  case fddMotor | fddStep | fddRead | fddWrite =>
    obtain ⟨⟨rfl, hbit⟩, _⟩ := hclear
    exact ⟨rfl, congrArg (command _ sel 0 · time) (ofBit0_bit0 hbit)⟩
  case fddConv =>
    obtain ⟨⟨rfl, harg⟩, rfl⟩ := hclear
    exact ⟨harg, rfl⟩
  case acsiAttach =>
    subst hclear
    exact ⟨rfl, rfl⟩

/-- An accepted word is the encoding of the well-formed instruction it decodes to. -/
theorem decode_word {p : Params} (hp : p.Ok) {w : Word128} {i : Instr} (h : decode p .E w = .ok i) :
    i.wf p = true ∧ encode p i = .command w := by
  obtain ⟨op, hop, _⟩ := decode_operation h
  have hlegal : Legal i (.cold p) := decode_legal hp h
  rw [decode_E hop] at h
  obtain ⟨hfit, henc⟩ := build_word h
  refine ⟨wf_iff.2 ⟨hfit, hlegal.time⟩, henc.trans ?_⟩
  rw [← opOf_eq_some hop]
  exact congrArg Raw.command (Cmd.toWord_ofWord w)

end Sys2Proof.Machine
end

section
namespace Sys2Proof.Machine

/-! ### ACSI command blocks -/

/-- The command that the fields of a block stand for (30_encoding.md R120). -/
def acsiCommand (dev : Dev) (op : BitVec 5) (lba : BitVec 24) (count ctrl : Byte) : Instr :=
  match op.toNat with
  | 0x00 => .acsiReady dev lba count ctrl
  | 0x03 => .acsiRequestSense dev lba count ctrl
  | 0x04 => .acsiFormat dev lba count ctrl
  | 0x08 => .acsiRead dev lba count ctrl
  | 0x0a => .acsiWrite dev lba count ctrl
  | 0x0b => .acsiSeek dev lba count ctrl
  | 0x12 => .acsiInquiry dev lba count ctrl
  | 0x15 => .acsiModeSelect dev lba count ctrl
  | _ => .acsiInvalid dev op lba count ctrl

theorem decodeAcsi_eq (w : BitVec 48) :
    decodeAcsi w = acsiCommand (w.extractLsb' 45 3).toFin (w.extractLsb' 40 5) (w.extractLsb' 16 24)
      (w.extractLsb' 8 8) (w.extractLsb' 0 8) := rfl

/-- A block is put together again from its fields (30_encoding.md R119). -/
theorem acsiWord_fields (w : BitVec 48) :
    acsiWord (w.extractLsb' 45 3).toFin (w.extractLsb' 40 5) (w.extractLsb' 16 24) (w.extractLsb' 8 8)
      (w.extractLsb' 0 8) = .acsi w := by
  have hw := w.isLt
  refine congrArg Raw.acsi (BitVec.eq_of_toNat_eq ?_)
  rw [acsiWord_toNat]
  simp only [BitVec.val_toFin, BitVec.extractLsb'_toNat, Nat.shiftRight_eq_div_pow]
  omega

theorem acsiOpcodeKnown_iff (op : BitVec 5) :
    acsiOpcodeKnown op = true ↔ op.toNat ∈ [0x00, 0x03, 0x04, 0x08, 0x0a, 0x0b, 0x12, 0x15] := by
  simp [acsiOpcodeKnown, BitVec.toNat_eq, or_assoc]

section
variable {p : Params} (dev : Dev) (op : BitVec 5) (lba : BitVec 24) (count ctrl : Byte)

/-- The fields of a block put together are read back. -/
theorem decodeRaw_acsiWord :
    decodeRaw p (acsiWord dev op lba count ctrl) = some (acsiCommand dev op lba count ctrl) := by
  have hdev : dev.val < 8 := dev.isLt
  have hop := op.isLt
  have hlba := lba.isLt
  have hcount := count.isLt
  have hctrl := ctrl.isLt
  obtain ⟨w, hw, hnat⟩ : ∃ w : BitVec 48, acsiWord dev op lba count ctrl = .acsi w ∧
      w.toNat = dev.val * 2 ^ 45 + op.toNat * 2 ^ 40 + lba.toNat * 2 ^ 16 + count.toNat * 2 ^ 8 + ctrl.toNat :=
    ⟨_, rfl, acsiWord_toNat dev op lba count ctrl⟩
  have hfields : (w.extractLsb' 45 3).toFin = dev ∧ w.extractLsb' 40 5 = op ∧ w.extractLsb' 16 24 = lba ∧
      w.extractLsb' 8 8 = count ∧ w.extractLsb' 0 8 = ctrl := by
    refine ⟨Fin.ext ?_, BitVec.eq_of_toNat_eq ?_, BitVec.eq_of_toNat_eq ?_, BitVec.eq_of_toNat_eq ?_,
      BitVec.eq_of_toNat_eq ?_⟩ <;>
      simp only [BitVec.val_toFin, BitVec.extractLsb'_toNat, hnat, Nat.shiftRight_eq_div_pow] <;> omega
  obtain ⟨h1, h2, h3, h4, h5⟩ := hfields
  rw [hw]
  refine congrArg some ((decodeAcsi_eq w).trans ?_)
  rw [h1, h2, h3, h4, h5]

/-- An opcode without a rule of its own is the invalid one. -/
theorem acsiCommand_unknown (h : acsiOpcodeKnown op = false) :
    acsiCommand dev op lba count ctrl = .acsiInvalid dev op lba count ctrl := by
  unfold acsiCommand
  split
  case h_9 => rfl
  all_goals
    rename_i hop
    exact absurd ((acsiOpcodeKnown_iff op).2 (by simp [hop])) (by simp [h])

/-- A block's command is well formed and is encoded in its fields. -/
theorem acsiCommand_word : (acsiCommand dev op lba count ctrl).wf p = true ∧
    encode p (acsiCommand dev op lba count ctrl) = acsiWord dev op lba count ctrl := by
  cases hk : acsiOpcodeKnown op with
  | false =>
    rw [acsiCommand_unknown dev op lba count ctrl hk]
    exact ⟨wf_iff.2 ⟨congrArg (!·) hk, nofun⟩, rfl⟩
  | true =>
    have hmem := (acsiOpcodeKnown_iff op).1 hk
    unfold acsiCommand
    split
    case h_9 => simp_all
    all_goals
      rename_i hop
      exact ⟨rfl, congrArg (acsiWord dev · lba count ctrl) (BitVec.eq_of_toNat_eq hop.symm)⟩

end

/-- A block decodes to a well-formed command, which is encoded as it. -/
theorem decodeAcsi_word (p : Params) (w : BitVec 48) :
    (decodeAcsi w).wf p = true ∧ encode p (decodeAcsi w) = .acsi w := by
  rw [decodeAcsi_eq]
  obtain ⟨hwf, henc⟩ := acsiCommand_word (p := p) (w.extractLsb' 45 3).toFin (w.extractLsb' 40 5) (w.extractLsb' 16 24)
    (w.extractLsb' 8 8) (w.extractLsb' 0 8)
  exact ⟨hwf, henc.trans (acsiWord_fields w)⟩

/-! ### Callback identities -/

section
variable {p : Params} {c : CbId}

theorem callbackOf_reserved (hchip : 9 ≤ c.val) (h : c.val < p.ncbInt) : callbackOf p c = reservedOf c := by
  unfold callbackOf
  split
  case h_10 => exact if_pos h
  all_goals omega

theorem callbackOf_ext (hchip : 9 ≤ c.val) (h : p.ncbInt ≤ c.val) :
    callbackOf p c = .cbExt (Fin.ofNat 256 (c.val - p.ncbInt)) := by
  unfold callbackOf
  split
  case h_10 => exact if_neg (by omega)
  all_goals omega

theorem reservedOf_twelve (h : 12 ≤ c.val) : reservedOf c = .cbReserved12 (Fin.ofNat 244 (c.val - 12)) := by
  unfold reservedOf
  split
  case h_4 => rfl
  all_goals omega

/-- The instruction is encoded as the identity, and its operands fit. -/
structure IsCallback (p : Params) (c : CbId) (i : Instr) : Prop where
  fits : i.fieldsFit p = true
  word : encode p i = .callback (BitVec.ofNat 8 c.val)

theorem isCallback_chip (h : c.val < 9) : IsCallback p c (callbackOf p c) := by
  obtain ⟨n, hn⟩ := c
  dsimp only at h
  interval_cases n <;> exact ⟨rfl, rfl⟩

theorem isCallback_reserved (hchip : 9 ≤ c.val) (h : c.val < p.ncbInt) : IsCallback p c (reservedOf c) := by
  obtain hc | hc | hc | hc : c.val = 9 ∨ c.val = 10 ∨ c.val = 11 ∨ 12 ≤ c.val := by omega
  · obtain rfl : c = 9 := Fin.ext hc
    exact ⟨decide_eq_true h, rfl⟩
  · obtain rfl : c = 10 := Fin.ext hc
    exact ⟨decide_eq_true h, rfl⟩
  · obtain rfl : c = 11 := Fin.ext hc
    exact ⟨decide_eq_true h, rfl⟩
  · have hlt := c.isLt
    have hval : 12 + (Fin.ofNat 244 (c.val - 12)).val = c.val := by
      rw [Fin.val_ofNat]
      omega
    rw [reservedOf_twelve hc]
    exact ⟨decide_eq_true (lt_of_eq_of_lt hval h), congrArg (Raw.callback <| BitVec.ofNat 8 ·) hval⟩

theorem isCallback_ext (hchip : 9 ≤ c.val) (h : p.ncbInt ≤ c.val) (hc : c.val < p.ncb) :
    IsCallback p c (callbackOf p c) := by
  have hlt := c.isLt
  have hval : p.ncbInt + (Fin.ofNat 256 (c.val - p.ncbInt)).val = c.val := by
    rw [Fin.val_ofNat]
    omega
  rw [callbackOf_ext hchip h]
  exact ⟨decide_eq_true (lt_of_eq_of_lt hval hc), congrArg (Raw.callback <| BitVec.ofNat 8 ·) hval⟩

theorem callbackOf_isCallback (hc : c.val < p.ncb) : IsCallback p c (callbackOf p c) := by
  rcases Nat.lt_or_ge c.val 9 with hchip | hchip
  · exact isCallback_chip hchip
  · rcases Nat.lt_or_ge c.val p.ncbInt with h | h
    · rw [callbackOf_reserved hchip h]
      exact isCallback_reserved hchip h
    · exact isCallback_ext hchip h hc

end

/-- A number below `NCB` decodes to its callback. -/
theorem decodeRaw_callback {p : Params} {n : Nat} {i : Instr} (hn : n < 256) (hlt : n < p.ncb)
    (hi : callbackOf p ⟨n, hn⟩ = i) : decodeRaw p (.callback (BitVec.ofNat 8 n)) = some i := by
  have hval : (BitVec.ofNat 8 n).toNat = n := Nat.mod_eq_of_lt hn
  have hid : (BitVec.ofNat 8 n).toFin = ⟨n, hn⟩ := Fin.ext hval
  refine (if_pos (by rwa [hval])).trans (congrArg some ?_)
  rw [hid, hi]

/-- The identities of the chips are below `NCB`. -/
theorem decodeRaw_chip {p : Params} (hp : p.Ok) {n : Nat} {i : Instr} (hn : n < 9)
    (hi : callbackOf p ⟨n, by omega⟩ = i) : decodeRaw p (.callback (BitVec.ofNat 8 n)) = some i := by
  have hids := hp.identities
  exact decodeRaw_callback (by omega) (by omega) hi

/-- A reserved identity is below `NCB`. -/
theorem decodeRaw_reserved {p : Params} (hp : p.Ok) {n : Nat} {i : Instr} (hchip : 9 ≤ n) (hn : n < p.ncbInt)
    (hlt : n < 256) (hi : reservedOf ⟨n, hlt⟩ = i) : decodeRaw p (.callback (BitVec.ofNat 8 n)) = some i := by
  have hids := hp.identities
  exact decodeRaw_callback hlt (by omega) ((callbackOf_reserved hchip hn).trans hi)

/-- An identity below `NCB` decodes to a well-formed callback, which is encoded as it. -/
theorem decodeCallback_word {p : Params} {id : BitVec 8} (h : id.toNat < p.ncb) :
    ∃ i, decodeCallback p id = some i ∧ i.wf p = true ∧ encode p i = .callback id := by
  obtain ⟨hfit, hword⟩ := callbackOf_isCallback (c := id.toFin) h
  refine ⟨callbackOf p id.toFin, if_pos h, wf_iff.2 ⟨hfit, by simp [instrTime_callbackOf]⟩, hword.trans ?_⟩
  exact congrArg Raw.callback (by simp)

/-- Settles O2: by the space of the encoding; a command's fields are those that its operation's checks leave. -/
theorem acceptedWordsHaveOneMeaning : Obligations.AcceptedWordsHaveOneMeaning := fun p hp =>
  ⟨fun _ _ h => decode_word hp h, decodeAcsi_word p, fun _ h => decodeCallback_word h,
    fun _ h => if_neg (Nat.not_lt.2 h)⟩

end Sys2Proof.Machine
end

section
namespace Sys2Proof.Machine

/-! ### Decoding an encoding -/

/-- Decoding gives the instruction back from its encoding, if it is well formed. -/
def DecodesBack (p : Params) (i : Instr) : Prop := i.wf p = true → decodeRaw p (encode p i) = some i

section
variable {p : Params}

/-! #### Commands with operands that are checked or cut -/

theorem decodesBack_advance (now : Clock) : DecodesBack p (.advance now) := fun hw =>
  decodeRaw_command (o := .advance) rfl ((ifClear_ok _ _ _).2 ⟨nowFits_of_wf hw rfl, rfl⟩)

theorem decodesBack_schedule (hp : p.Ok) (cb : BitVec 8) (param : Param) (delay : Clock) :
    DecodesBack p (.schedule cb param delay) := by
  intro hw
  obtain ⟨hparam, hdelay⟩ := Bool.and_eq_true_iff.1 (Laws.EncodingSpace.fields_of_wf hw)
  refine decodeRaw_command (o := .schedule) rfl ((ifClear_ok _ _ _).2 ⟨?_, ?_⟩)
  · exact Bool.and_eq_true_iff.2 ⟨hparam, delayFits_timeOfDelay hp delay⟩
  · exact congrArg (Instr.schedule cb param) (delayOf_timeOfDelay hp delay (of_decide_eq_true hdelay))

theorem decodesBack_cbAddbyte (buf : BitVec 8) (byte : Byte) : DecodesBack p (.cbAddbyte buf byte) := fun _ =>
  decodeRaw_command (o := .cbAddbyte) rfl ((ifClear_ok _ _ _).2
    ⟨Bool.and_eq_true_iff.2 ⟨decide_eq_true (toNat_setWidth_lt byte (by decide)), rfl⟩,
      congrArg (Instr.cbAddbyte buf) (setWidth_back byte (by decide))⟩)

theorem decodesBack_cbAddbytes (buf : BitVec 8) (len : BitVec 16) (burst : BitVec 96) :
    DecodesBack p (.cbAddbytes buf len burst) := by
  intro hw
  refine decodeRaw_command (o := .cbAddbytes) rfl ((ifClear_ok _ _ _).2 ?_)
  simp only [burstOf_extract]
  exact ⟨Laws.EncodingSpace.fields_of_wf hw, trivial⟩

theorem decodesBack_aciaRxbyte (inst : BitVec 8) (byte : Byte) (now : Clock) :
    DecodesBack p (.aciaRxbyte inst byte now) := fun hw =>
  decodeRaw_command (o := .aciaRxbyte) rfl ((ifClear_ok _ _ _).2
    ⟨Bool.and_eq_true_iff.2 ⟨decide_eq_true (toNat_setWidth_lt byte (by decide)), nowFits_of_wf hw rfl⟩,
      congrArg (Instr.aciaRxbyte inst · now) (setWidth_back byte (by decide))⟩)

theorem decodesBack_fddMount (slot : BitVec 8) (handle : Handle) (singleSided ghost : Bool) :
    DecodesBack p (.fddMount slot handle singleSided ghost) := by
  intro _
  obtain ⟨hbits, hsingle, hghost⟩ := mountBits_read singleSided ghost
  exact decodeRaw_command (o := .fddMount) rfl ((ifClear_ok _ _ _).2
    ⟨Bool.and_eq_true_iff.2 ⟨decide_eq_true hbits, rfl⟩, congrArg₂ (Instr.fddMount slot handle) hsingle hghost⟩)

/-- The four commands on a drive with a one-bit operand and a time. -/
theorem decodesBack_driveBit (drive : BitVec 8) (b : Bool) (now : Clock) :
    DecodesBack p (.fddMotor drive b now) ∧ DecodesBack p (.fddStep drive b now) ∧
      DecodesBack p (.fddRead drive b now) ∧ DecodesBack p (.fddWrite drive b now) := by
  have hclear : nowFits p now = true → (decide ((ofBit0 b).toNat < 2) && nowFits p now) = true := fun hnow =>
    Bool.and_eq_true_iff.2 ⟨decide_eq_true (ofBit0_lt b), hnow⟩
  refine ⟨fun hw => ?_, fun hw => ?_, fun hw => ?_, fun hw => ?_⟩ <;>
    exact decodeRaw_command rfl ((ifClear_ok _ _ _).2 ⟨hclear (nowFits_of_wf hw rfl), by simp only [bit0_ofBit0]⟩)

theorem decodesBack_fddConv (fn : BitVec 16) (arg : BitVec 32) : DecodesBack p (.fddConv fn arg) := fun hw =>
  decodeRaw_command (o := .fddConv) rfl ((ifClear_ok _ _ _).2
    ⟨Bool.and_eq_true_iff.2 ⟨Laws.EncodingSpace.fields_of_wf hw, rfl⟩, rfl⟩)

/-! #### Register accesses -/

theorem decodesBack_regRd (unit : BitVec 8) (reg : BitVec 16) (now : Clock) : DecodesBack p (.regRd unit reg now) := by
  intro hw
  have hnone : readRegAt p unit reg = none := Option.isNone_iff_eq_none.1 (Laws.EncodingSpace.fields_of_wf hw)
  refine decodeRaw_command (o := .regRd) rfl ((ifClear_ok _ _ _).2 ⟨nowFits_of_wf hw rfl, ?_⟩)
  simp only [decodeRegRd, hnone]

theorem decodesBack_regWr (unit : BitVec 8) (reg : BitVec 16) (v : BitVec 32) (now : Clock) :
    DecodesBack p (.regWr unit reg v now) := by
  intro hw
  have hnone : writeRegAt unit reg = none := Option.isNone_iff_eq_none.1 (Laws.EncodingSpace.fields_of_wf hw)
  refine decodeRaw_command (o := .regWr) rfl ((if_pos (nowFits_of_wf hw rfl)).trans ?_)
  simp only [decodeRegWr, hnone]

theorem decodesBack_writeCfg (v : BitVec 8) (now : Clock) : DecodesBack p (.regWrEngineCfg v now) := fun hw =>
  decodeRaw_regWrWord ⟨hw, rfl⟩ rfl ((accepts_engineCfg p v).trans (Laws.EncodingSpace.fields_of_wf hw))
    (congrArg (Instr.regWrEngineCfg · now) (setWidth_back v (by decide)))

/-- A write of an operand as wide as its register, which PARAM carries widened. -/
theorem decodeRaw_widenedWrite {n unit reg : Nat} {r : WriteReg} {now : Clock} (i : BitVec n → Instr) (v : BitVec n)
    (hn : n ≤ 32) (ht : (i v).wf p = true ∧ instrTime (i v) = some now)
    (hr : writeRegAt (BitVec.ofNat 8 unit) (BitVec.ofNat 16 reg) = some r) (hcfg : r ≠ .engineCfg)
    (hwidth : r.width p = n) (hi : ∀ u : BitVec 32, writeInstr r u now = i (u.setWidth n)) :
    decodeRaw p (regWrWord unit reg (v.setWidth 32) now) = some (i v) := by
  refine decodeRaw_regWrWord ht hr (accepts_of_lt hcfg ?_) ((hi _).trans (congrArg i (setWidth_back v hn)))
  rw [hwidth]
  exact toNat_setWidth_lt v hn

/-! #### Callbacks -/

theorem decodesBack_cbReserved12 (hp : p.Ok) (n : Fin 244) : DecodesBack p (.cbReserved12 n) := by
  intro hw
  have hback : Fin.ofNat 244 (12 + n.val - 12) = n := by
    rw [Nat.add_sub_cancel_left]
    exact Fin.ofNat_val_eq_self n
  exact decodeRaw_reserved hp (by omega) (of_decide_eq_true (Laws.EncodingSpace.fields_of_wf hw)) (by omega)
    ((reservedOf_twelve (Nat.le_add_right 12 _)).trans (congrArg Instr.cbReserved12 hback))

theorem decodesBack_cbExt (hp : p.Ok) (n : CbId) : DecodesBack p (.cbExt n) := by
  intro hw
  have hids := hp.identities
  have hlt : p.ncbInt + n.val < p.ncb := of_decide_eq_true (Laws.EncodingSpace.fields_of_wf hw)
  have hback : Fin.ofNat 256 (p.ncbInt + n.val - p.ncbInt) = n := by
    rw [Nat.add_sub_cancel_left]
    exact Fin.ofNat_val_eq_self n
  exact decodeRaw_callback (by omega) hlt
    ((callbackOf_ext (by dsimp only; omega) (Nat.le_add_right _ _)).trans (congrArg Instr.cbExt hback))

/-! #### Command blocks -/

theorem decodesBack_acsiInvalid (dev : Dev) (op : BitVec 5) (lba : BitVec 24) (count ctrl : Byte) :
    DecodesBack p (.acsiInvalid dev op lba count ctrl) := fun hw =>
  (decodeRaw_acsiWord dev op lba count ctrl).trans (congrArg some (acsiCommand_unknown dev op lba count ctrl
    ((Bool.not_eq_true' _).mp (Laws.EncodingSpace.fields_of_wf hw))))

end

/-- Settles O1: by instruction; a command's word passes its operation's checks, a register's place names the register, an
identity its callback, an opcode its command. -/
theorem decodeOfEncode : Obligations.DecodeOfEncode := by
  intro p i hp hw
  have hfit := Laws.EncodingSpace.fields_of_wf hw
  cases i
  case nop | reset | cancel | fireAck | agQuery | cbDestroy | cbReset | cbReadbyte | cbNextbyte | cbArebytes
      | cbCount | fddUnmount | acsiDetach | cbCreate | acsiAttach => exact decodeRaw_command rfl rfl
  case advance => exact decodesBack_advance _ hw
  case schedule => exact decodesBack_schedule hp _ _ _ hw
  case cbAddbyte => exact decodesBack_cbAddbyte _ _ hw
  case cbAddbytes => exact decodesBack_cbAddbytes _ _ _ hw
  case aciaRxbyte => exact decodesBack_aciaRxbyte _ _ _ hw
  case fddMount => exact decodesBack_fddMount _ _ _ _ hw
  case fddMotor d b now => exact (decodesBack_driveBit d b now).1 hw
  case fddStep d b now => exact (decodesBack_driveBit d b now).2.1 hw
  case fddRead d b now => exact (decodesBack_driveBit d b now).2.2.1 hw
  case fddWrite d b now => exact (decodesBack_driveBit d b now).2.2.2 hw
  case fddConv => exact decodesBack_fddConv _ _ hw
  case regRd => exact decodesBack_regRd _ _ _ hw
  case regWr => exact decodesBack_regWr _ _ _ _ hw
  case regWrEngineCfg => exact decodesBack_writeCfg _ _ hw
  case regWrAcia0Cr v now =>
    exact decodeRaw_widenedWrite (.regWrAcia0Cr · now) v (by decide) ⟨hw, rfl⟩ rfl nofun rfl fun _ => rfl
  case regWrAcia0Tdr v now =>
    exact decodeRaw_widenedWrite (.regWrAcia0Tdr · now) v (by decide) ⟨hw, rfl⟩ rfl nofun rfl fun _ => rfl
  case regWrAcia1Cr v now =>
    exact decodeRaw_widenedWrite (.regWrAcia1Cr · now) v (by decide) ⟨hw, rfl⟩ rfl nofun rfl fun _ => rfl
  case regWrAcia1Tdr v now =>
    exact decodeRaw_widenedWrite (.regWrAcia1Tdr · now) v (by decide) ⟨hw, rfl⟩ rfl nofun rfl fun _ => rfl
  case regWrDmaMcr v now =>
    exact decodeRaw_widenedWrite (.regWrDmaMcr · now) v (by decide) ⟨hw, rfl⟩ rfl nofun rfl fun _ => rfl
  case regWrAcsibusByte v now =>
    exact decodeRaw_widenedWrite (.regWrAcsibusByte · now) v (by decide) ⟨hw, rfl⟩ rfl nofun rfl fun _ => rfl
  case regWrDmaSct | regWrDmaAddr =>
    exact decodeRaw_regWrWord ⟨hw, rfl⟩ rfl (accepts_of_lt nofun (of_decide_eq_true hfit)) rfl
  case regWrFddCpb d v now =>
    fin_cases d <;> exact decodeRaw_regWrWord ⟨hw, rfl⟩ rfl (accepts_of_lt nofun v.isLt) rfl
  case regRdDmaFifo0 j _ => exact decodeRaw_regRdWord ⟨hw, rfl⟩ (readRegAt_fifo0 p j) rfl
  case regRdDmaFifo1 j _ => exact decodeRaw_regRdWord ⟨hw, rfl⟩ (readRegAt_fifo1 p j) rfl
  case regRdFddTrack d _ | regRdFddFlags d _ | regRdFddBytepos d _ | regRdFddCpb d _ | regRdFddTlast d _
      | regRdFddTnext d _ | regRdFddCond d _ =>
    fin_cases d <;> exact decodeRaw_regRdWord ⟨hw, rfl⟩ rfl rfl
  case regRdAcsidevPhase | regRdAcsidevStatus | regRdAcsidevError | regRdAcsidevSectors | regRdAcsidevFlags
      | regRdAcsidevCurLba | regRdAcsidevCmd0 | regRdAcsidevCmd1 | regRdAcsidevCmd2 | regRdAcsidevCmd3
      | regRdAcsidevCmd4 | regRdAcsidevCmd5 =>
    exact decodeRaw_regRdWord ⟨hw, rfl⟩ (readRegAt_device (of_decide_eq_true hfit) _) rfl
  case cbAcia0Tx | cbAcia0Rx | cbAcia1Tx | cbAcia1Rx | cbFdd0Index | cbFdd1Index | cbFdd0Xfer | cbFdd1Xfer
      | cbAcsiBlock => exact decodeRaw_chip hp (by decide) rfl
  case cbReserved9 => exact decodeRaw_reserved hp le_rfl (of_decide_eq_true hfit) (by decide) rfl
  case cbReserved10 n =>
    fin_cases n <;> exact decodeRaw_reserved hp (by decide) (of_decide_eq_true hfit) (by decide) rfl
  case cbReserved12 => exact decodesBack_cbReserved12 hp _ hw
  case cbExt => exact decodesBack_cbExt hp _ hw
  case acsiReady | acsiRequestSense | acsiFormat | acsiRead | acsiWrite | acsiSeek | acsiInquiry | acsiModeSelect =>
    exact decodeRaw_acsiWord _ _ _ _ _
  case acsiInvalid => exact decodesBack_acsiInvalid _ _ _ _ _ hw
  all_goals exact decodeRaw_regRdWord ⟨hw, rfl⟩ rfl rfl

end Sys2Proof.Machine
end

section
namespace Sys2Proof.Machine

/-! ### What a step runs -/

/-- A port whose work is an instruction, the other port idle: the step is the instruction's meaning. -/
theorem step_of_run {s u : State} {p : Port} {i : Instr} (hw : fetchPort p s = some (.run i u))
    (ho : hasWork s (otherPort p) = false) : step s = exec i u := step_of_alone hw ho

/-- An accepted word at the head of a port runs its instruction. -/
theorem fetchCommand_accepted {p : Port} {w : Word128} {u : State} {i : Instr} (h : decode u.par p w = .ok i) :
    fetchCommand p w u = .run i u := by
  rw [fetchCommand, h]

theorem hasWork_X_of_empty {s : State} (h : s.portX.queue = []) : hasWork s .X = false := by simp [hasWork, h]

/-- Settles O5: the work of the one port that has some is the decoded command, the owed block or the chosen callback. -/
theorem stepRunsTheDecodedInstruction : Obligations.StepRunsTheDecodedInstruction := by
  refine ⟨fun s w rest i hd ha hE hX hi => ?_, fun s w rest i hd ha hE hX hi => ?_, fun s k hd ha hX => ?_,
    fun s c v hd hX hc => ?_⟩
  · exact step_of_run ((fetchE_word hd ha hE).trans (congrArg some (fetchCommand_accepted hi))) (hasWork_X_of_empty hX)
  · have hidle : hasWork s .E = false := by simp [hasWork, hd, ha, hE]
    exact step_of_run ((fetchX_word hX).trans (congrArg some (fetchCommand_accepted hi))) hidle
  · exact step_of_run (fetchE_block hd ha) (hasWork_X_of_empty hX)
  · exact step_of_run (fetchE_fires hd hc) (hasWork_X_of_empty hX)

/-! ### The engine's commands and the callbacks of no chip -/

/-- Settles O12: each command is its own checks' case, and FIRE_ACK's identity has to be the one that waits. -/
theorem nopAdvanceFireAck : Obligations.NopAdvanceFireAck := by
  refine ⟨fun s => rfl, fun s now hd hnow => ?_, fun s now hd => if_neg hd, fun s cb he hn hd hcb => ?_,
    fun s cb he hn hwait => ?_, fun s cb hi hn => external_internal hi hn, fun s cb h => external_bad h⟩
  · exact (if_pos hd).trans (timed_ok hnow)
  · have hack : ¬(s.disp ≠ .waitAck ∨ cb ≠ s.fireCb) := by simp [hd, hcb]
    exact (external_ok ⟨cb.toNat, cb.isLt⟩ rfl hn he).trans (if_neg hack)
  · exact (external_ok ⟨cb.toNat, cb.isLt⟩ rfl hn he).trans (if_pos hwait)

/-- A callback with an entry runs its body, the slot being cleared. -/
theorem dispatchEntry_some {c c' : CbId} {e : AgEntry} {s : State} (body : AgEntry → State → Result) (hc : c' = c)
    (he : s.ag[c] = some e) : dispatchEntry c' body s = body e (s.cancel c) := by
  subst hc
  rw [dispatchEntry, he]

/-- Settles O14: the identity's slot has the entry, and the body of the callback is evaluated. -/
theorem externalAndReservedCallbacks : Obligations.ExternalAndReservedCallbacks := by
  refine ⟨fun s n c e hc he => ?_, fun s c e he => ⟨fun hc => ?_, fun n hc => ?_, fun n hc => ?_⟩⟩
  · have hid : extId s.par n = c := Fin.ext ((congrArg (· % 256) hc.symm).trans (Nat.mod_eq_of_lt c.isLt))
    refine (dispatchEntry_some (handToHost (extId s.par n)) hid he).trans ?_
    rw [hid]
    rfl
  · exact dispatchEntry_some _ (Fin.ext hc.symm) he
  · have hid : Fin.ofNat 256 (10 + n.val) = c := Fin.ext ((Nat.mod_eq_of_lt (by omega)).trans hc.symm)
    exact dispatchEntry_some _ hid he
  · have hid : Fin.ofNat 256 (12 + n.val) = c := Fin.ext ((Nat.mod_eq_of_lt (by omega)).trans hc.symm)
    exact dispatchEntry_some _ hid he

end Sys2Proof.Machine
end

section
namespace Sys2Proof.Machine

/-! ### The order of the entries that are due -/

/-- The distance between two times is the difference of their distances from a third, wrapped (00_scope.md R13). -/
theorem sdiff_eq_bmod_sub (p : Params) (a b t : Clock) :
    p.sdiff a b = (p.sdiff a t - p.sdiff b t).bmod (2 ^ p.cw) := by
  have hsum : (a.toNat : Int) - b.toNat = ((a.toNat : Int) - t.toNat) - ((b.toNat : Int) - t.toNat) := by omega
  rw [Params.sdiff, hsum, Params.sdiff, Params.sdiff, Int.bmod_sub_bmod, Int.sub_bmod_bmod]

/-- A difference of at most half the range, taken backwards, is not wrapped. -/
theorem bmod_of_nonpos {n : Nat} {x : Int} (hlow : -(2 ^ n : Int) ≤ x * 2) (hhigh : x ≤ 0) : x.bmod (2 ^ n) = x := by
  have hpos : (0 : Int) < 2 ^ n := by positivity
  apply Int.bmod_eq_of_le_mul_two <;> push_cast <;> omega

theorem le_sdiff_mul_two (p : Params) (a t : Clock) : -(2 ^ p.cw : Int) ≤ p.sdiff a t * 2 := by
  have h := Int.le_bmod (x := (a.toNat : Int) - t.toNat) (Nat.two_pow_pos p.cw)
  unfold Params.sdiff
  push_cast at h
  omega

/-- Of two entries that are due, the one at the greater distance behind the target fires no later. -/
theorem sdiff_le_zero_of_le {p : Params} {a b t : Clock} (hb : p.sdiff b t ≤ 0) (h : p.sdiff a t ≤ p.sdiff b t) :
    p.sdiff a b ≤ 0 := by
  have hlow := le_sdiff_mul_two p a t
  have hwrap : p.sdiff a b = p.sdiff a t - p.sdiff b t := by
    rw [sdiff_eq_bmod_sub p a b t]
    exact bmod_of_nonpos (by omega) (by omega)
  omega

/-- Inside the half-range the order by subtraction is that of the distances from the target. -/
theorem sdiff_le_of_le_zero {p : Params} {a b t : Clock} (ha : p.sdiff a t ≤ 0)
    (hlow : -(2 ^ (p.cw - 1) : Int) < p.sdiff b t) (h : p.sdiff a b ≤ 0) : p.sdiff a t ≤ p.sdiff b t := by
  by_contra hlt
  have hle : (2 : Int) * 2 ^ (p.cw - 1) ≤ 2 ^ p.cw ∨ (2 : Int) ^ (p.cw - 1) = 1 := by
    rcases Nat.eq_zero_or_pos p.cw with hz | hz
    · exact .inr (by simp [hz])
    · left
      rw [← pow_succ', Nat.sub_add_cancel hz]
  have hwrap : (p.sdiff a t - p.sdiff b t).bmod (2 ^ p.cw) = p.sdiff a t - p.sdiff b t := by
    apply Int.bmod_eq_of_le_mul_two <;> push_cast <;> omega
  rw [sdiff_eq_bmod_sub p a b t] at h
  omega

/-! ### The choice of the dispatcher -/

section
variable {s : State} {c d : CbId}

theorem due_iff (t : Clock) : due s t c = true ↔ ∃ e, s.ag[c] = some e ∧ s.par.sdiff e.fireTime t ≤ 0 := by
  unfold due
  cases s.ag[c] <;> simp

theorem noLater_iff {e f : AgEntry} (he : s.ag[c] = some e) (hf : s.ag[d] = some f) :
    noLater s c d = true ↔ s.par.sdiff e.fireTime f.fireTime ≤ 0 := by
  rw [noLater, he, hf]
  exact decide_eq_true_iff

theorem mem_dueList : c ∈ dueList s ↔ c.val < s.par.ncb ∧ due s s.advTarget c = true := by
  have hmem : c ∈ (List.finRange 256).take s.par.ncb ↔ c.val < s.par.ncb := by
    rw [List.mem_take_iff_getElem]
    constructor
    · rintro ⟨n, hn, rfl⟩
      simp only [List.getElem_finRange, Fin.val_cast]
      omega
    · intro h
      exact ⟨c.val, by simp [h], by simp⟩
  rw [dueList, List.mem_filter, hmem]

theorem mem_candidates : c ∈ candidates s ↔ c ∈ dueList s ∧ ∀ d ∈ dueList s, noLater s c d = true := by
  simp [candidates, List.mem_filter]

/-- How far a slot's entry lies from the target; 0 without one. -/
def distanceOf (s : State) (c : CbId) : Int := (s.ag[c]).elim 0 fun e => s.par.sdiff e.fireTime s.advTarget

theorem distanceOf_some {e : AgEntry} (he : s.ag[c] = some e) : distanceOf s c = s.par.sdiff e.fireTime s.advTarget := by
  rw [distanceOf, he]
  rfl

/-- A due entry at the least distance is one that the dispatcher may fire. -/
theorem mem_candidates_of_least (hc : c ∈ dueList s) (h : ∀ d ∈ dueList s, distanceOf s c ≤ distanceOf s d) :
    c ∈ candidates s := by
  refine mem_candidates.2 ⟨hc, fun d hd => ?_⟩
  obtain ⟨e, he, _⟩ := (due_iff _).1 (mem_dueList.1 hc).2
  obtain ⟨f, hf, hdue⟩ := (due_iff _).1 (mem_dueList.1 hd).2
  have hle := h d hd
  rw [distanceOf_some he, distanceOf_some hf] at hle
  exact (noLater_iff he hf).2 (sdiff_le_zero_of_le hdue hle)

/-- Something is due exactly when something may be fired. -/
theorem candidates_eq_nil_iff : candidates s = [] ↔ ∀ c : CbId, c.val < s.par.ncb → due s s.advTarget c = false := by
  refine ⟨fun hnil c hn => ?_, candidates_eq_nil⟩
  by_contra hdue
  have hmem : c ∈ dueList s := mem_dueList.2 ⟨hn, by simpa using hdue⟩
  obtain ⟨m, hm, hleast⟩ := (dueList s).toFinset.exists_min_image (distanceOf s) ⟨c, List.mem_toFinset.2 hmem⟩
  have hcand := mem_candidates_of_least (List.mem_toFinset.1 hm) fun d hd => hleast d (List.mem_toFinset.2 hd)
  rw [hnil] at hcand
  exact absurd hcand List.not_mem_nil

theorem chooseDue_eq_none_iff : chooseDue s = none ↔ candidates s = [] := by
  unfold chooseDue
  split <;> simp [*]

end

/-- What is chosen is due, and nothing that is due fires earlier. -/
theorem chooseDue_spec {s v : State} {c : CbId} (h : chooseDue s = some (c, v)) :
    ∃ e, s.ag[c] = some e ∧ s.par.sdiff e.fireTime s.advTarget ≤ 0 ∧
      ∀ (d : CbId) (f : AgEntry), d.val < s.par.ncb → s.ag[d] = some f → s.par.sdiff f.fireTime s.advTarget ≤ 0 →
        s.par.sdiff e.fireTime f.fireTime ≤ 0 := by
  obtain ⟨hc, hfirst⟩ := mem_candidates.1 (chooseDue_mem h)
  obtain ⟨e, he, hdue⟩ := (due_iff _).1 (mem_dueList.1 hc).2
  refine ⟨e, he, hdue, fun d f hd hf hfdue => (noLater_iff he hf).1 (hfirst d ?_)⟩
  exact mem_dueList.2 ⟨hd, (due_iff _).2 ⟨f, hf, hfdue⟩⟩

/-- Settles O15: a due entry at the least distance from the target may be fired; inside the half-range the order by
subtraction does not wrap. -/
theorem earliestEntryIsChosen : Obligations.EarliestEntryIsChosen := by
  refine ⟨fun s ⟨c, hn, hdue⟩ hnone => ?_, fun s c v h => ⟨chooseDue_lt_ncb h, chooseDue_spec h, ?_⟩,
    fun s c v e hr h he d f hd hf => ?_⟩
  · have hidle := candidates_eq_nil_iff.1 (chooseDue_eq_none_iff.1 hnone) c hn
    rw [hdue] at hidle
    cases hidle
  · obtain ⟨n, rfl⟩ := chooseDue_leaves h
    rfl
  · obtain ⟨e', he', hdue, hfirst⟩ := chooseDue_spec h
    obtain rfl : e = e' := Option.some.inj (he.symm.trans he')
    rcases lt_or_ge 0 (s.par.sdiff f.fireTime s.advTarget) with hlater | hfdue
    · omega
    · exact sdiff_le_of_le_zero hdue (hr d f hf) (hfirst d f hd hf hfdue)

/-! ### The end of the loop -/

/-- A callback fired inside the loop leaves it running, or waits for the host. -/
theorem exec_callbackOf_not_idle {p : Params} {c : CbId} {s t : State} (hs : s.disp = .scan)
    (h : exec (callbackOf p c) s = .next t) : t.disp ≠ .idle := by
  by_cases hext : ∃ n, callbackOf p c = .cbExt n
  · obtain ⟨n, hn⟩ := hext
    rw [hn] at h
    rcases dispatchEntry_next h with ⟨_, rfl⟩ | ⟨e, _, hbody⟩
    · simp [hs]
    · cases hbody
      simp
  · have same := exec_callback_undisturbed (callbackOf_operation p c) (callbackOf_device p c)
      (fun n hn => hext ⟨n, hn⟩) s t h
    simp [same.disp, hs]

/-- Settles O16: a turn that fires a callback does not end the loop, so the turn found nothing due. -/
theorem loopEndsWithNothingDue : Obligations.LoopEndsWithNothingDue := by
  intro s t hd hX h hidle
  have hwork := hasWork_X_of_empty hX
  cases hc : chooseDue { s with serving := .E } with
  | some r =>
    obtain ⟨c, v⟩ := r
    rw [step_of_run (fetchE_fires hd hc) hwork] at h
    have hscan : v.disp = .scan := by
      obtain ⟨n, rfl⟩ := chooseDue_leaves hc
      exact hd
    exact absurd hidle (exec_callbackOf_not_idle hscan h)
  | none =>
    have hnone : ∀ c : CbId, c.val < s.par.ncb → due s s.advTarget c = false :=
      
      candidates_eq_nil_iff.1 (chooseDue_eq_none_iff (s := { s with serving := .E }).1 hc)
    rw [step_of_alone (fetchE_ends hd hnone) hwork] at h
    cases h
    exact ⟨hnone, rfl⟩

end Sys2Proof.Machine
end

section
namespace Sys2Proof.Machine

/-! ### Time-carrying commands -/

/-- A meaning that goes on in a next state. -/
def Answers (r : Result) : Prop := ∃ t, r = .next t

theorem answers_next (t : State) : Answers (.next t) := ⟨t, rfl⟩

theorem answers_respond (flags rcb : BitVec 8) (data : BitVec 32) (time : Clock) (s : State) :
    Answers (respond flags rcb data time s) := ⟨_, rfl⟩

theorem answers_raise (e : ErrCode) (s : State) : Answers (raise e s) := ⟨_, rfl⟩

theorem answers_ite {q : Prop} [Decidable q] {a b : Result} (ha : Answers a) (hb : Answers b) :
    Answers (if q then a else b) := by
  split
  · exact ha
  · exact hb

theorem answers_readRule (r : ReadReg) (s : State) : Answers (readRule r s) := by
  cases r
  case fddBytepos => exact answers_ite (answers_respond _ _ _ _ _) (answers_respond _ _ _ _ _)
  all_goals exact answers_respond _ _ _ _ _

theorem answers_acsiBusWrite (v : Byte) (s : State) : Answers (acsiBusWrite v s) := by
  refine answers_ite (answers_ite (answers_next _) (answers_respond _ _ _ _ _))
    (answers_ite (answers_respond _ _ _ _ _) ?_)
  cases namedDevice s.par v with
  | none => exact answers_respond _ _ _ _ _
  | some k => exact answers_ite (answers_respond _ _ _ _ _) (answers_respond _ _ _ _ _)

theorem answers_writeRule (r : WriteReg) (v : BitVec 32) (s : State) : Answers (writeRule r v s) := by
  cases r
  case fddCpb => exact answers_ite (answers_raise _ _) (answers_ite (answers_raise _ _) (answers_respond _ _ _ _ _))
  case acsibusByte => exact answers_acsiBusWrite _ s
  all_goals exact answers_respond _ _ _ _ _

theorem answers_atSector {d : Fin 2} {side : Bool} {s : State} {body : Handle → Sector → Nat → State → Result}
    (h : ∀ hd n size u, Answers (body hd n size u)) : Answers (atSector d side s body) := by
  unfold atSector
  dsimp only
  split
  · exact answers_raise _ _
  · refine answers_ite (answers_raise _ _) (answers_ite (answers_raise _ _) (answers_ite (answers_raise _ _) ?_))
    split
    · exact answers_raise _ _
    · exact h _ _ _ _

/-- From a state, at whatever `NOW`, the instruction is the time check and then a body that answers. -/
structure ChecksTime (i : Instr) (now : Clock) (s : State) (body : State → Result) : Prop where
  runs : ∀ n, exec i { s with now := n } = timed now { s with now := n } body
  answers : ∀ u, Answers (body u)

section
variable {i : Instr} {now : Clock} {s : State}

theorem checksTime_read (r : ReadReg) (h : ∀ s, exec i s = readRegister r now s) :
    ChecksTime i now s (readRule r) := ⟨fun _ => h _, answers_readRule r⟩

theorem checksTime_write (r : WriteReg) (v : BitVec 32) (h : ∀ s, exec i s = writeRegister r v now s)
    (ha : r.accepts s.par v = true) : ChecksTime i now s (writeRule r v) :=
  ⟨fun _ => (h _).trans (if_pos ha), answers_writeRule r v⟩

/-- A write of an operand as wide as its register. -/
theorem checksTime_widened {w : Nat} (r : WriteReg) (v : BitVec w) (hw : w ≤ 32)
    (h : ∀ s, exec i s = writeRegister r (v.setWidth 32) now s) (hr : r ≠ .engineCfg) (hwidth : r.width s.par = w) :
    ChecksTime i now s (writeRule r (v.setWidth 32)) :=
  checksTime_write r _ h (accepts_of_lt hr (hwidth ▸ toNat_setWidth_lt v hw))

/-- A command on one of two units: the selected one's body comes after the time check. -/
theorem checksTime_select {sel : BitVec 8} {body : Fin 2 → State → Result} (hsel : sel.toNat < 2)
    (h : ∀ s, exec i s = select 2 sel s fun d : Fin 2 => timed now s (body d)) (ha : ∀ d u, Answers (body d u)) :
    ChecksTime i now s (body ⟨sel.toNat, hsel⟩) :=
  ⟨fun _ => (h _).trans (select_ok ⟨sel.toNat, hsel⟩ hsel rfl), ha _⟩

end

theorem checksTime_advance {now : Clock} {s : State} (h : s.disp = .idle) :
    ChecksTime (.advance now) now s fun u => .next { u with advTarget := u.now, disp := .scan } :=
  ⟨fun _ => if_pos h, fun _ => answers_next _⟩

theorem checksTime_regRd {unit : BitVec 8} {reg : BitVec 16} {now : Clock} {s : State} {r : ReadReg}
    (hr : readRegAt s.par unit reg = some r) : ChecksTime (.regRd unit reg now) now s (readRule r) := by
  refine ⟨fun n => ?_, answers_readRule r⟩
  have hrun : exec (.regRd unit reg now) { s with now := n } = execRegRd unit reg now { s with now := n } := rfl
  rw [hrun, execRegRd, hr]
  rfl

theorem checksTime_regWr {unit : BitVec 8} {reg : BitVec 16} {v : BitVec 32} {now : Clock} {s : State} {r : WriteReg}
    (hr : writeRegAt unit reg = some r) (ha : r.accepts s.par v = true) :
    ChecksTime (.regWr unit reg v now) now s (writeRule r v) := by
  refine checksTime_write r v (fun u => ?_) ha
  have hrun : exec (.regWr unit reg v now) u = execRegWr unit reg v now u := rfl
  rw [hrun, execRegWr, hr]

theorem checksTime_aciaRxbyte {inst : BitVec 8} {byte : Byte} {now : Clock} {s : State} (h : inst.toNat < 2) :
    ∃ body, ChecksTime (.aciaRxbyte inst byte now) now s body :=
  ⟨_, checksTime_select h (fun _ => rfl) fun _ _ => answers_ite (answers_raise _ _) (answers_respond _ _ _ _ _)⟩

theorem checksTime_fddMotor {drive : BitVec 8} {on : Bool} {now : Clock} {s : State} (h : drive.toNat < 2) :
    ∃ body, ChecksTime (.fddMotor drive on now) now s body :=
  ⟨_, checksTime_select h (fun _ => rfl) fun _ _ => answers_ite (answers_respond _ _ _ _ _)
    (answers_ite (answers_respond _ _ _ _ _) (answers_ite (answers_raise _ _) (answers_respond _ _ _ _ _)))⟩

theorem checksTime_fddStep {drive : BitVec 8} {dir : Bool} {now : Clock} {s : State} (h : drive.toNat < 2) :
    ∃ body, ChecksTime (.fddStep drive dir now) now s body :=
  ⟨_, checksTime_select h (fun _ => rfl) fun _ _ => answers_ite (answers_raise _ _) (answers_respond _ _ _ _ _)⟩

theorem checksTime_fddRead {drive : BitVec 8} {side : Bool} {now : Clock} {s : State} (h : drive.toNat < 2) :
    ∃ body, ChecksTime (.fddRead drive side now) now s body :=
  ⟨_, checksTime_select h (fun _ => rfl) fun _ _ => answers_atSector fun _ _ _ _ => by
    dsimp only
    split
    · exact answers_raise _ _
    · exact answers_respond _ _ _ _ _⟩

theorem checksTime_fddWrite {drive : BitVec 8} {side : Bool} {now : Clock} {s : State} (h : drive.toNat < 2) :
    ∃ body, ChecksTime (.fddWrite drive side now) now s body :=
  ⟨_, checksTime_select h (fun _ => rfl) fun _ _ => answers_atSector fun _ _ _ _ => answers_respond _ _ _ _ _⟩

/-- Every time-carrying command that passes the checks before it checks its time, and then answers. -/
theorem exists_checksTime {i : Instr} {s : State} {now : Clock} (ht : instrTime i = some now)
    (hc : passesChecks s.par i = true) (hd : s.disp = .idle ∨ ∀ n, i ≠ .advance n) :
    ∃ body, ChecksTime i now s body := by
  cases i <;> simp only [instrTime, Option.some.injEq, reduceCtorEq] at ht <;> subst ht
  case advance now => exact ⟨_, checksTime_advance (hd.resolve_right fun h => h now rfl)⟩
  case regRd unit reg now =>
    obtain ⟨r, hr⟩ := Option.isSome_iff_exists.1 hc
    exact ⟨_, checksTime_regRd hr⟩
  case regWr unit reg v now =>
    obtain ⟨r, hr, ha⟩ := (Option.any_eq_true _ _).1 hc
    exact ⟨_, checksTime_regWr hr ha⟩
  case aciaRxbyte => exact checksTime_aciaRxbyte (of_decide_eq_true hc)
  case fddMotor => exact checksTime_fddMotor (of_decide_eq_true hc)
  case fddStep => exact checksTime_fddStep (of_decide_eq_true hc)
  case fddRead => exact checksTime_fddRead (of_decide_eq_true hc)
  case fddWrite => exact checksTime_fddWrite (of_decide_eq_true hc)
  case regWrEngineCfg v now =>
    exact ⟨_, checksTime_write .engineCfg _ (fun _ => rfl) ((accepts_engineCfg _ v).trans hc)⟩
  case regWrDmaSct v now =>
    exact ⟨_, checksTime_write .dmaSct v (fun _ => rfl) (accepts_of_lt nofun (of_decide_eq_true hc))⟩
  case regWrDmaAddr v now =>
    exact ⟨_, checksTime_write .dmaAddr v (fun _ => rfl) (accepts_of_lt nofun (of_decide_eq_true hc))⟩
  case regWrFddCpb d v now => exact ⟨_, checksTime_write (.fddCpb d) v (fun _ => rfl) (accepts_of_lt nofun v.isLt)⟩
  case regWrAcia0Cr | regWrAcia0Tdr | regWrAcia1Cr | regWrAcia1Tdr | regWrDmaMcr | regWrAcsibusByte =>
    exact ⟨_, checksTime_widened _ _ (by decide) (fun _ => rfl) nofun rfl⟩
  all_goals exact ⟨_, checksTime_read _ fun _ => rfl⟩

/-- An instruction run at the time it carries leaves `NOW` there. -/
theorem exec_now_of_at_time {i : Instr} {s t : State} (ht : instrTime i = some s.now) (h : exec i s = .next t) :
    t.now = s.now := by
  have hi : i ≠ .reset := by
    rintro rfl
    cases ht
  obtain ⟨u, hu, heff⟩ := exec_runs i s hi t h
  rw [heff.now]
  rcases hu with rfl | ⟨now, hnow, _, rfl⟩
  · rfl
  · exact Option.some.inj (hnow.symm.trans ht)

/-- Settles O9: past its checks a command is the time check and then a body that answers, and at its own time the check
passes and changes nothing. -/
theorem timeCarryingCommandsSetNow : Obligations.TimeCarryingCommandsSetNow := by
  intro i s now ht hc hd
  obtain ⟨body, hruns, hanswers⟩ := exists_checksTime ht hc hd
  have hself : 0 ≤ s.par.sdiff now now := (Params.sdiff_self _ _).ge
  refine ⟨fun hback => (hruns s.now).trans (timed_bad hback), fun hforward => ?_⟩
  have hbody : exec i s = body { s with now := now } := (hruns s.now).trans (timed_ok hforward)
  have hsame : exec i { s with now := now } = body { s with now := now } := (hruns now).trans (timed_ok hself)
  obtain ⟨t, hnext⟩ := hanswers { s with now := now }
  exact ⟨hbody.trans hsame.symm, t, hbody.trans hnext,
    exec_now_of_at_time (s := { s with now := now }) ht (hsame.trans hnext)⟩

end Sys2Proof.Machine
end

section
namespace Sys2Proof.Machine

/-! ### Cold boot, element by element -/

/-- With the default reset values the status registers read as the reset table says (10_state.md R28, R40, R44). -/
theorem cold_default_reads {p : Params} (h : p.reset = .default) :
    engineStatus (.cold p) = 0 ∧ p.reset.dma.status = 0x01 ∧ (Fdd.cold p).flags = 0x08 := by
  refine ⟨?_, ?_, ?_⟩
  · simp [engineStatus, h, ResetValues.default, flag]
  · rw [h]
    decide
  · simp [Fdd.flags, Fdd.cold, Fdd.empty, h, ResetValues.default, flag]

/-- Settles O11: RESET answers on the cold boot of its own parameters, whose elements are read off. -/
theorem resetBootsCold : Obligations.ResetBootsCold := by
  refine ⟨fun s => ⟨(coldBoot s).answer (respWord 0 OK 0 0 0), rfl, ?_, State.answer_par _ _, State.answer_mem _ _,
    State.answer_disks _ _, State.answer_picks _ _, fun hE => ?_, fun hdef => ?_⟩, rfl, rfl⟩
  · simp [coldBoot_eq, CircBuf.cold, Acia.cold, Fdd.cold, AcsiDev.cold, Acia.sr, flag]
  · rw [State.answer_E (coldBoot s) _ hE]
    exact ⟨rfl, rfl⟩
  · obtain ⟨hstatus, hdma, hflags⟩ := cold_default_reads hdef
    refine ⟨?_, ?_, fun d => ?_⟩
    · simp only [engineStatus, State.answer_disp, State.answer_fireCb, State.answer_pins]
      exact hstatus
    · simpa [coldBoot_eq] using hdma
    · simpa [coldBoot_eq] using hflags

end Sys2Proof.Machine
end

section
namespace Sys2Proof.Machine

/-! ### The critical section of a buffer command -/

/-- A command that finds the flag held waits (41_circular_buffer.md R163). -/
theorem critical_held {b : BufId} {body : CircBuf → CircBuf × Word128} {s : State} (h : (s.cb[b]).mx = true) :
    critical b body s = .next s := if_pos h

/-- A command that finds the flag free runs its body with the flag held, and answers (41_circular_buffer.md R163). -/
theorem critical_free {b : BufId} {body : CircBuf → CircBuf × Word128} {s : State} {c' : CircBuf} {w : Word128}
    (h : (s.cb[b]).mx = false) (hbody : body { s.cb[b] with mx := true } = (c', w)) :
    critical b body s = .next (State.answer { s with cb := s.cb.set b { c' with mx := false } } w) := by
  have hnot : ¬ (s.cb[b]).mx = true := Bool.not_eq_true _ ▸ h
  refine (if_neg hnot).trans ?_
  rw [hbody]

/-- A free flag lowered again leaves the buffers as they are. -/
theorem set_released {s : State} {b : BufId} (h : (s.cb[b]).mx = false) :
    s.cb.set b { s.cb[b] with mx := false } = s.cb := by
  have hsame : { s.cb[b] with mx := false } = s.cb[b] := by rw [← h]
  rw [hsame]
  simp

/-- A body that answers and leaves the buffer alone. -/
theorem critical_answers {b : BufId} {body : CircBuf → CircBuf × Word128} {s : State} {w : Word128}
    (h : (s.cb[b]).mx = false) (hbody : body { s.cb[b] with mx := true } = ({ s.cb[b] with mx := true }, w)) :
    critical b body s = .next (s.answer w) := by
  rw [critical_free h hbody]
  dsimp only
  rw [set_released h]

/-- An inert buffer is refused (41_circular_buffer.md R161). -/
theorem critical_inert {b : BufId} {body : CircBuf → CircBuf × Word128} {s : State} (h : (s.cb[b]).mx = false)
    (hcap : (s.cb[b]).cap = 0) : critical b (unlessInert body) s = .next (s.answer (errWord .inert)) :=
  critical_answers h (if_pos hcap)

/-- A live buffer is not. -/
theorem critical_live {b : BufId} {body : CircBuf → CircBuf × Word128} {s : State} {c' : CircBuf} {w : Word128}
    (h : (s.cb[b]).mx = false) (hcap : (s.cb[b]).cap ≠ 0) (hbody : body { s.cb[b] with mx := true } = (c', w)) :
    critical b (unlessInert body) s = .next (State.answer { s with cb := s.cb.set b { c' with mx := false } } w) :=
  critical_free h ((if_neg hcap).trans hbody)

section
variable {s : State} {buf : BitVec 8} {b : BufId} (hb : b.val = buf.toNat) (hn : b.val < s.par.nbuf)
include hb hn

/-- A command with a buffer number that passes the check is its critical section. -/
theorem onBuffer_select (body : CircBuf → CircBuf × Word128) :
    onBuffer buf body s = critical b (unlessInert body) s := select_ok b hn hb.symm

/-- CB_CREATE of a size that passes the check (41_circular_buffer.md R164). -/
theorem exec_cbCreate_select {size : BitVec 32} (h2 : 2 ≤ size.toNat) (hmax : size.toNat ≤ s.par.cbMaxcap) :
    exec (.cbCreate buf size) s = critical b (fun _ => (CircBuf.create size.toNat, cbWord OK 0)) s :=
  (select_ok b hn hb.symm).trans (if_neg (by omega))

/-- CB_DESTROY (41_circular_buffer.md R165). -/
theorem exec_cbDestroy_select :
    exec (.cbDestroy buf) s = critical b (fun c => (c.destroy, cbWord OK 0)) s := select_ok b hn hb.symm

/-- CB_RESET (41_circular_buffer.md R166). -/
theorem exec_cbReset_select :
    exec (.cbReset buf) s = critical b (fun c => (c.rewind, cbWord OK 0)) s := select_ok b hn hb.symm

/-- CB_ADDBYTES of a length that passes the first check (41_circular_buffer.md R168). -/
theorem exec_cbAddbytes_select {len : BitVec 16} (burst : BitVec 96) (hmax : len.toNat ≤ s.par.cbBurstMax) :
    exec (.cbAddbytes buf len burst) s = critical b (unlessInert fun c =>
      if len.toNat ≥ c.cap then (c, errWord .value)
      else (c.addBytes (burstBytes burst len.toNat),
        cbWord (if len.toNat > c.cap - 1 - c.count then 0 else OK) 0)) s :=
  (select_ok b hn hb.symm).trans (if_neg (by omega))

end

/-! ### The lifecycle commands -/

/-- Settles O17: each command passes its checks and runs its body in the critical section; a rewind of an inert buffer
puts it back as it was. -/
theorem lifecycleCommandsComplete : Obligations.LifecycleCommandsComplete := by
  intro s buf b hb hn hfree
  refine ⟨fun size h2 hmax => ?_, ?_, ?_⟩
  · rw [exec_cbCreate_select hb hn h2 hmax, critical_free hfree rfl]
    rfl
  · rw [exec_cbDestroy_select hb hn, critical_free hfree rfl]
    rfl
  · rw [exec_cbReset_select hb hn]
    split
    · exact critical_answers hfree (congrArg (·, cbWord OK 0) (CircBuf.rewind_of_inert ‹_›))
    · rw [critical_free hfree (congrArg (·, cbWord OK 0) (CircBuf.rewind_of_live ‹_›)), ← hfree]
      rfl

/-! ### When a command waits and when it is refused -/

/-- Settles O19: the checks before the flag, the flag, and the checks made with the flag held. -/
theorem buffersWaitOrRefuse : Obligations.BuffersWaitOrRefuse := by
  intro s buf byte size len burst
  refine ⟨fun hsel => ?_, fun b hb hn => ⟨fun hsize => ?_, fun hlen => ?_, fun h2 hmax hlen hheld => ?_,
    fun hlen hfree hinert => ?_, fun hlen hfree hlive hlong => ?_⟩⟩
  · simp only [List.forall_mem_cons, List.not_mem_nil, false_implies, implies_true, and_true]
    exact ⟨select_bad hsel, select_bad hsel, select_bad hsel, select_bad hsel, select_bad hsel, select_bad hsel,
      select_bad hsel, select_bad hsel, select_bad hsel⟩
  · exact (select_ok b hn hb.symm).trans (if_pos hsize)
  · exact (select_ok b hn hb.symm).trans (if_pos hlen)
  · have hwait : ∀ body, onBuffer buf body s = .next s := fun body =>
      (onBuffer_select hb hn body).trans (critical_held hheld)
    simp only [List.forall_mem_cons, List.not_mem_nil, false_implies, implies_true, and_true]
    exact ⟨(exec_cbCreate_select hb hn h2 hmax).trans (critical_held hheld),
      (exec_cbDestroy_select hb hn).trans (critical_held hheld), (exec_cbReset_select hb hn).trans (critical_held hheld),
      hwait _, (exec_cbAddbytes_select hb hn burst hlen).trans (critical_held hheld), hwait _, hwait _, hwait _, hwait _⟩
  · have hrefuse : ∀ body, onBuffer buf body s = .next (s.answer (errWord .inert)) := fun body =>
      (onBuffer_select hb hn body).trans (critical_inert hfree hinert)
    simp only [List.forall_mem_cons, List.not_mem_nil, false_implies, implies_true, and_true]
    exact ⟨hrefuse _, (exec_cbAddbytes_select hb hn burst hlen).trans (critical_inert hfree hinert), hrefuse _, hrefuse _,
      hrefuse _, hrefuse _⟩
  · rw [exec_cbAddbytes_select hb hn burst hlen]
    exact critical_answers hfree ((if_neg (Nat.ne_of_gt hlive)).trans (if_pos hlong))

/-! ### The producer's commands on store and cursors -/

namespace CircBuf

/-- A burst puts its bytes into the slots from its first one on, in order. -/
theorem burstInto_map_range' (cap slot : Nat) (f : Nat → Byte) (n k : Nat) (store : List (Option Byte)) :
    burstInto cap store (slot + k) ((List.range' k n).map f) =
      (List.range' k n).foldl (fun store j => store.set ((slot + j) % cap) (some (f j))) store := by
  induction n generalizing k store with
  | zero => rfl
  | succ n ih =>
    rw [List.range'_succ, List.map_cons, List.foldl_cons, burstInto, Nat.add_assoc]
    exact ih (k + 1) _

theorem burstInto_burstBytes (cap slot : Nat) (store : List (Option Byte)) (burst : BitVec 96) (len : Nat) :
    burstInto cap store slot (burstBytes burst len) =
      (List.range len).foldl
        (fun store j => store.set ((slot + j) % cap) (some (burst.extractLsb' (8 * j) 8))) store := by
  rw [burstBytes_eq, List.range_eq_range']
  exact burstInto_map_range' cap slot (fun j => burst.extractLsb' (8 * j) 8) len 0 store

end CircBuf

/-- Settles O18: both commands run their body in the critical section; a burst's store is spelt out slot by slot. -/
theorem producerCommandsComplete : Obligations.ProducerCommandsComplete := by
  rintro s buf b _ hb hn rfl hfree hlive
  refine ⟨fun byte => ?_, fun len burst hmax hlen => ?_⟩
  · show execCbAddbyte buf byte s = _
    rw [execCbAddbyte, onBuffer_select hb hn, critical_live hfree hlive rfl, ← hfree]
    rfl
  · have hsize : (burstBytes burst len.toNat).length = len.toNat := length_burstBytesFrom _ _ _
    rw [exec_cbAddbytes_select hb hn burst hmax, critical_live hfree hlive (if_neg (Nat.not_le.2 hlen)),
      ← CircBuf.burstInto_burstBytes, ← hfree]
    simp only [CircBuf.addBytes, hsize]
    rfl

end Sys2Proof.Machine
end

section
namespace Sys2Proof.Machine

/-! ### A burst is its bytes added one by one -/

namespace CircBuf

/-- A burst begins at a slot modulo the capacity. -/
theorem burstInto_mod (cap slot : Nat) (store : List (Option Byte)) (bytes : List Byte) :
    burstInto cap store (slot % cap) bytes = burstInto cap store slot bytes := by
  induction bytes generalizing store slot with
  | nil => rfl
  | cons b bytes ih =>
    rw [burstInto, burstInto, Nat.mod_mod, ← ih (slot % cap + 1), ← ih (slot + 1), Nat.mod_add_mod]

/-- The empty burst. -/
theorem addBytes_nil {c : CircBuf} (hc : c.Ok) (h : c.cap ≠ 0) : c.addBytes [] = c := by
  obtain ⟨_, _, hwr⟩ := hc.live h
  simp [addBytes, burstInto, Nat.mod_eq_of_lt hwr]

/-- A burst is its first byte and then the rest: the unread bytes are overtaken by the whole exactly when they are by one of
the two. -/
theorem addBytes_cons {c : CircBuf} (hc : c.Ok) (x : Byte) {bytes : List Byte} (hlen : bytes.length + 1 < c.cap) :
    c.addBytes (x :: bytes) = (c.addBytes [x]).addBytes bytes := by
  have hcap : c.cap ≠ 0 := by omega
  have hlt := count_lt hcap
  have hcount : (c.addBytes [x]).count = c.count + 1 - (c.count + 1 - (c.cap - 1)) :=
    count_addBytes hc (by rw [List.length_singleton]; omega)
  have hstore : burstInto c.cap c.store c.wr (x :: bytes) =
      burstInto c.cap (c.addBytes [x]).store (c.addBytes [x]).wr bytes :=
    (burstInto_mod c.cap (c.wr + 1) _ bytes).symm
  have hwr : (c.wr + (bytes.length + 1)) % c.cap = ((c.addBytes [x]).wr + bytes.length) % c.cap := by
    show _ = ((c.wr + 1) % c.cap + bytes.length) % c.cap
    rw [Nat.mod_add_mod, Nat.add_assoc, Nat.add_comm 1]
  have hrd : (if bytes.length + 1 > c.cap - 1 - c.count then (c.wr + (bytes.length + 1)) % c.cap else c.rd) =
      if bytes.length > c.cap - 1 - (c.addBytes [x]).count then ((c.addBytes [x]).wr + bytes.length) % c.cap
      else (c.addBytes [x]).rd := by
    have hone : (c.addBytes [x]).rd = if 1 > c.cap - 1 - c.count then (c.addBytes [x]).wr else c.rd := rfl
    have hlast : bytes.length = 0 → ((c.addBytes [x]).wr + bytes.length) % c.cap = (c.addBytes [x]).wr := fun h0 => by
      rw [h0, Nat.add_zero]
      exact Nat.mod_mod _ _
    rw [hwr, hone, hcount]
    split <;> split
    · rfl
    · rw [if_pos (by omega), hlast (by omega)]
    · omega
    · rw [if_neg (by omega)]
  exact congrFun (congr (congrArg₂ (mk c.cap) hstore hrd) hwr) c.mx

end CircBuf

theorem runAll_cons {i : Instr} {is : List Instr} {s t : State} (h : exec i s = .next t) :
    runAll (i :: is) s = runAll is t := by
  rw [runAll, h]

/-- What bytes added one by one to a buffer come to: the buffer after the burst of them, and an answer for each, all of them
`OK = 1` exactly when the bytes fit beside the unread ones. -/
structure AddedSingly (b : BufId) (bytes : List Byte) (answers : List Word128) (s u : State) : Prop where
  buffers : u.cb = s.cb.set b ((s.cb[b]).addBytes bytes)
  replies : (servedPort u).replies = (servedPort s).replies ++ answers
  length : answers.length = bytes.length
  flags : ∀ w ∈ answers, w = cbWord 0 0 ∨ w = cbWord OK 0
  fits : (∀ w ∈ answers, w = cbWord OK 0) ↔ (s.cb[b]).count + bytes.length ≤ (s.cb[b]).cap - 1

theorem AddedSingly.nil {b : BufId} {s : State} (hc : (s.cb[b]).Ok) (hcap : (s.cb[b]).cap ≠ 0) :
    AddedSingly b [] [] s s where
  buffers := by
    rw [CircBuf.addBytes_nil hc hcap]
    simp
  replies := (List.append_nil _).symm
  length := rfl
  flags := nofun
  fits := by
    have hlt := CircBuf.count_lt hcap
    exact iff_of_true nofun (Nat.le_sub_one_of_lt hlt)

/-- One byte more in front: its own answer is `OK = 0` exactly when the buffer was full, and then so does the whole burst
lose a byte. -/
theorem AddedSingly.cons {b : BufId} {x : Byte} {bytes : List Byte} {answers : List Word128} {s t u : State}
    (hc : (s.cb[b]).Ok) (hlen : bytes.length + 1 < (s.cb[b]).cap) {w : Word128}
    (hw : w = cbWord (if (s.cb[b]).wr = (s.cb[b]).rd then 0 else OK) 0)
    (ht : t = State.answer { s with cb := s.cb.set b ((s.cb[b]).addBytes [x]) } w)
    (h : AddedSingly b bytes answers t u) : AddedSingly b (x :: bytes) (w :: answers) s u := by
  have hcap : (s.cb[b]).cap ≠ 0 := by omega
  have hlt := CircBuf.count_lt hcap
  have hfull := CircBuf.wr_eq_rd_iff hc hcap
  have hcount : ((s.cb[b]).addBytes [x]).count =
      (s.cb[b]).count + 1 - ((s.cb[b]).count + 1 - ((s.cb[b]).cap - 1)) :=
    CircBuf.count_addBytes hc (by rw [List.length_singleton]; omega)
  have hcb : t.cb = s.cb.set b ((s.cb[b]).addBytes [x]) := by rw [ht, State.answer_cb]
  have hbuf : t.cb[b] = (s.cb[b]).addBytes [x] := by rw [ht, answered_buffer]
  have hcap' : (t.cb[b]).cap = (s.cb[b]).cap := by rw [hbuf]; rfl
  have hflag : w = cbWord 0 0 ∨ w = cbWord OK 0 := by rw [hw]; split <;> simp
  have hfit : w = cbWord OK 0 ↔ ¬ (s.cb[b]).count = (s.cb[b]).cap - 1 := by
    rw [hw, ← hfull]
    split
    · exact iff_of_false (by decide) (not_not.2 ‹_›)
    · exact iff_of_true rfl ‹_›
  refine ⟨?_, ?_, ?_, List.forall_mem_cons.2 ⟨hflag, h.flags⟩, ?_⟩
  · rw [h.buffers, hbuf, hcb, CircBuf.addBytes_cons hc x hlen]
    exact Vector.set_set _ _
  · rw [h.replies, ht, answered_replies, List.append_assoc, List.singleton_append]
  · rw [List.length_cons, List.length_cons, h.length]
  · rw [List.forall_mem_cons, hfit, h.fits, hcap', hbuf, hcount, List.length_cons]
    omega

theorem runAll_cbAddbyte {buf : BitVec 8} {b : BufId} (hb : b.val = buf.toNat) {bytes : List Byte} {s : State}
    (hn : b.val < s.par.nbuf) (hc : (s.cb[b]).Ok) (hlen : bytes.length < (s.cb[b]).cap) :
    ∃ u answers, runAll (bytes.map (.cbAddbyte buf)) s = some u ∧ AddedSingly b bytes answers s u := by
  induction bytes generalizing s with
  | nil => exact ⟨s, [], rfl, .nil hc (Nat.ne_of_gt hlen)⟩
  | cons x bytes ih =>
    have hcap : (s.cb[b]).cap ≠ 0 := Nat.ne_of_gt (Nat.zero_lt_of_lt hlen)
    have hfirst := exec_cbAddbyte_live hb hn hc x hcap
    generalize ht : State.answer _ _ = t at hfirst
    have hbuf : t.cb[b] = (s.cb[b]).addBytes [x] := by rw [← ht, answered_buffer]
    obtain ⟨u, answers, hrun, hall⟩ := ih (s := t) (by rw [← ht, State.answer_par]; exact hn)
      (hbuf ▸ CircBuf.addBytes_ok hc hcap [x]) (by rw [hbuf]; exact Nat.lt_of_succ_lt hlen)
    exact ⟨u, _, (runAll_cons hfirst).trans hrun, hall.cons hc hlen rfl ht.symm⟩

/-- Settles O22: by induction on the burst, whose first byte is a burst of one. -/
theorem burstEqualsSingleBytes : Obligations.BurstEqualsSingleBytes := by
  intro s buf b len burst hb hn hc hmax hlen
  have hlt := CircBuf.count_lt (c := s.cb[b]) (by omega)
  have hsize : (burstBytes burst len.toNat).length = len.toNat := length_burstBytesFrom _ _ _
  obtain ⟨u, answers, hrun, hbuffers, hreplies, hlength, hflags, hfits⟩ :=
    runAll_cbAddbyte hb (bytes := burstBytes burst len.toNat) hn hc (by rw [hsize]; exact hlen)
  rw [CircBuf.burstBytes_eq, List.map_map] at hrun
  rw [hsize] at hlength hfits
  refine ⟨_, u, exec_cbAddbytes_live hb hn hc burst hmax hlen, hrun, by rw [State.answer_cb, hbuffers], answers, hreplies,
    hlength, hflags, ?_⟩
  have hover : len.toNat > (s.cb[b]).cap - 1 - (s.cb[b]).count ↔ ¬ ∀ w ∈ answers, w = respWord 0 1 0 0 0 := by
    rw [show (∀ w ∈ answers, w = respWord 0 1 0 0 0) ↔ _ from hfits]
    omega
  rw [answered_replies]
  simp only [hover, ite_not]
  rfl

end Sys2Proof.Machine
end

section
namespace Sys2Proof.Machine

/-! ### Instructions that are not about a buffer -/

/-- Every state the answer leads to has the buffers of a state. -/
def KeepsBuffers (s : State) (r : Result) : Prop := Leads (fun t => t.cb = s.cb) r

namespace KeepsBuffers
variable {s u : State}

theorem next (h : u.cb = s.cb) : KeepsBuffers s (.next u) := Leads.next h

theorem answer {w : Word128} (h : u.cb = s.cb) : KeepsBuffers s (.next (u.answer w)) :=
  next ((State.answer_cb u w).trans h)

theorem raise (e : ErrCode) (h : u.cb = s.cb) : KeepsBuffers s (Machine.raise e u) := answer h

theorem ite {c : Prop} [Decidable c] {a b : Result} (ha : KeepsBuffers s a) (hb : KeepsBuffers s b) :
    KeepsBuffers s (if c then a else b) := by
  split
  · exact ha
  · exact hb

theorem select {n m : Nat} {sel : BitVec 8} {body : Fin m → Result} (h : ∀ k, KeepsBuffers s (body k)) :
    KeepsBuffers s (select n sel s body) := by
  intro t ht
  rcases select_next ht with ⟨_, rfl⟩ | ⟨k, _, _, ht⟩
  · exact refuse_cb _ _
  · exact h k t ht

theorem timed {now : Clock} {body : State → Result} (h : KeepsBuffers s (body { s with now := now })) :
    KeepsBuffers s (timed now s body) := by
  intro t ht
  rcases timed_next ht with ⟨_, rfl⟩ | ⟨_, ht⟩
  · exact refuse_cb _ _
  · exact h t ht

theorem external {cb : BitVec 8} {body : CbId → Result} (h : ∀ c, KeepsBuffers s (body c)) :
    KeepsBuffers s (external cb s body) :=
  select fun c => ite (raise _ rfl) (h c)

theorem dispatchEntry {c : CbId} {body : AgEntry → State → Result} (h : ∀ e, KeepsBuffers s (body e (s.cancel c))) :
    KeepsBuffers s (dispatchEntry c body s) := by
  intro t ht
  rcases dispatchEntry_next ht with ⟨_, rfl⟩ | ⟨e, _, ht⟩
  · rfl
  · exact h e t ht

/-- A callback whose body always goes on. -/
theorem callback {c : CbId} {f : AgEntry → State → State} (h : ∀ e, (f e (s.cancel c)).cb = s.cb) :
    KeepsBuffers s (Machine.dispatchEntry c (fun e s => .next (f e s)) s) := dispatchEntry fun e => next (h e)

theorem atSector {d : Fin 2} {side : Bool} {body : Handle → Sector → Nat → State → Result}
    (h : ∀ hd n size u, u.cb = s.cb → KeepsBuffers s (body hd n size u)) : KeepsBuffers s (atSector d side s body) := by
  unfold Machine.atSector
  dsimp only
  split
  · exact raise _ (setCond_cb _ _ _)
  · split
    · exact raise _ rfl
    · split
      · exact raise _ rfl
      · split
        · exact raise _ (setCond_cb _ _ _)
        · split
          · exact raise _ (setCond_cb _ _ _)
          · exact h _ _ _ _ rfl

end KeepsBuffers

section
variable (s : State)

theorem keepsBuffers_readRegister (r : ReadReg) (now : Clock) : KeepsBuffers s (readRegister r now s) := by
  refine .timed ?_
  cases r
  case fddBytepos d =>
    unfold readRule readBytepos
    dsimp only
    split <;> exact .answer rfl
  all_goals exact .answer (by simp)

theorem keepsBuffers_acsiBusWrite (v : Byte) : KeepsBuffers s (acsiBusWrite v s) := by
  refine .ite (.ite (.next rfl) (.answer rfl)) (.ite (.answer rfl) ?_)
  split
  · exact .answer rfl
  · exact .ite (.answer rfl) (.answer rfl)

theorem keepsBuffers_writeCpb (d : Fin 2) (v : BitVec 32) : KeepsBuffers s (writeCpb d v s) :=
  .ite (.raise _ rfl) (.ite (.raise _ rfl) (.answer rfl))

theorem keepsBuffers_writeRegister (r : WriteReg) (v : BitVec 32) (now : Clock) :
    KeepsBuffers s (writeRegister r v now s) := by
  refine .ite (.timed ?_) (.raise _ rfl)
  cases r
  case fddCpb => exact keepsBuffers_writeCpb _ _ _
  case acsibusByte => exact keepsBuffers_acsiBusWrite _ _
  all_goals exact .answer (by simp)

theorem keepsBuffers_noRegister (unit : BitVec 8) : KeepsBuffers s (noRegister unit s) :=
  .ite (.raise _ rfl) (.raise _ rfl)

theorem keepsBuffers_execRegRd (unit : BitVec 8) (reg : BitVec 16) (now : Clock) :
    KeepsBuffers s (execRegRd unit reg now s) := by
  unfold execRegRd
  split
  · exact keepsBuffers_readRegister _ _ _
  · exact keepsBuffers_noRegister _ _

theorem keepsBuffers_execRegWr (unit : BitVec 8) (reg : BitVec 16) (v : BitVec 32) (now : Clock) :
    KeepsBuffers s (execRegWr unit reg v now s) := by
  unfold execRegWr
  split
  · exact keepsBuffers_writeRegister _ _ _ _
  · exact keepsBuffers_noRegister _ _

theorem keepsBuffers_execFddMotor (drive : BitVec 8) (on : Bool) (now : Clock) :
    KeepsBuffers s (execFddMotor drive on now s) :=
  .select fun _ => .timed (.ite (.answer rfl) (.ite (.answer (by simp)) (.ite (.raise _ rfl) (.answer (by simp)))))

theorem keepsBuffers_execFddRead (drive : BitVec 8) (side : Bool) (now : Clock) :
    KeepsBuffers s (execFddRead drive side now s) :=
  .select fun _ => .timed <| .atSector fun _ _ _ _ hu => by
    dsimp only
    split
    · exact .raise _ (by simpa using hu)
    · exact .answer (by simpa using hu)

theorem keepsBuffers_execFddConv (fn : BitVec 16) (arg : BitVec 32) : KeepsBuffers s (execFddConv fn arg s) := by
  unfold execFddConv
  split
  · exact .raise _ rfl
  · exact .ite (.answer rfl) (.raise _ rfl)

theorem keepsBuffers_execAcsiSeek (k : Dev) (lba : BitVec 24) (count ctrl : Byte) :
    KeepsBuffers s (execAcsiSeek k lba count ctrl s) := by
  refine .answer ?_
  split <;> simp

end

/-- Every instruction but RESET and the buffers' own commands leaves the buffers alone. -/
theorem exec_keepsBuffers {i : Instr} (s : State) (hi : i ≠ .reset) (hu : bufferUse i = none) :
    KeepsBuffers s (exec i s) := by
  cases i
  case reset => exact absurd rfl hi
  case cbCreate | cbDestroy | cbReset | cbAddbyte | cbAddbytes | cbReadbyte | cbNextbyte | cbArebytes | cbCount => cases hu
  case nop => exact .answer rfl
  case advance => exact .ite (.timed (.next rfl)) (.raise _ rfl)
  case schedule | cancel => exact .external fun _ => .answer rfl
  case fireAck => exact .external fun _ => .ite (.raise _ rfl) (.next rfl)
  case agQuery => exact .select fun _ => by split <;> exact .answer rfl
  case regRd => exact keepsBuffers_execRegRd _ _ _ _
  case regWr => exact keepsBuffers_execRegWr _ _ _ _ _
  case aciaRxbyte => exact .select fun _ => .timed (.ite (.raise _ rfl) (.answer (by simp)))
  case fddMount | fddUnmount => exact .select fun _ => .ite (.raise _ rfl) (.answer rfl)
  case fddMotor => exact keepsBuffers_execFddMotor _ _ _ _
  case fddStep => exact .select fun _ => .timed (.ite (.raise _ rfl) (.answer (by simp)))
  case fddRead => exact keepsBuffers_execFddRead _ _ _ _
  case fddWrite => exact .select fun _ => .timed (.atSector fun _ _ _ _ h => .answer (by simpa using h))
  case fddConv => exact keepsBuffers_execFddConv _ _ _
  case acsiAttach | acsiDetach => exact .select fun _ => .ite (.raise _ rfl) (.answer rfl)
  case acsiSeek k lba count ctrl => exact keepsBuffers_execAcsiSeek s k lba count ctrl
  case acsiReady | acsiRequestSense | acsiFormat | acsiRead | acsiWrite | acsiInquiry | acsiModeSelect | acsiInvalid =>
    exact .answer (by simp)
  case cbAcia0Tx | cbAcia0Rx | cbAcia1Tx | cbAcia1Rx | cbFdd0Index | cbFdd1Index | cbFdd0Xfer | cbFdd1Xfer | cbAcsiBlock =>
    exact .callback fun _ => by simp
  case cbReserved9 | cbReserved10 | cbReserved12 => exact .dispatchEntry fun _ => .next rfl
  case cbExt => exact .dispatchEntry fun _ => .answer rfl
  case regWrEngineCfg | regWrAcia0Cr | regWrAcia0Tdr | regWrAcia1Cr | regWrAcia1Tdr | regWrDmaMcr | regWrDmaSct |
      regWrDmaAddr | regWrFddCpb | regWrAcsibusByte => exact keepsBuffers_writeRegister _ _ _ _
  all_goals exact keepsBuffers_readRegister _ _ _

/-! ### What each side of a buffer can do -/

/-- What a command can do to the buffer it names: a producer's adds bytes at the write cursor, a consumer's moves the read
cursor over the oldest unread byte (41_circular_buffer.md R167 to R173). Of the lifecycle commands nothing is said. -/
inductive CircBuf.UsedAs (c : CircBuf) : BufferUse → CircBuf → Prop where
  | same (use : BufferUse) : UsedAs c use c
  | added (bytes : List Byte) : bytes.length < c.cap → UsedAs c .produces (c.addBytes bytes)
  | dropped : c.cap ≠ 0 → c.next ≠ c.wr → UsedAs c .consumes { c with rd := c.next }
  | lifecycle (c' : CircBuf) : UsedAs c .lifecycle c'

/-- Every buffer of a state, if it is in its form, is left alone or is the one named and used so. -/
def UsesBuffer (use : BufferUse) (buf : BitVec 8) (s t : State) : Prop :=
  ∀ b : BufId, (s.cb[b]).Ok → t.cb[b] = s.cb[b] ∨ b.val = buf.toNat ∧ (s.cb[b]).UsedAs use t.cb[b]

section
variable {use : BufferUse} {buf : BitVec 8} {s t : State} {body : CircBuf → CircBuf × Word128}

theorem UsesBuffer.of_cb (h : t.cb = s.cb) : UsesBuffer use buf s t := fun b _ => .inl (by rw [h])

theorem usesBuffer_critical {b : BufId} (hb : buf.toNat = b.val)
    (h : (s.cb[b]).Ok → (s.cb[b]).UsedAs use { (body { s.cb[b] with mx := true }).1 with mx := false }) :
    Leads (UsesBuffer use buf s) (critical b body s) := by
  intro t ht
  rcases critical_next ht with ⟨_, rfl⟩ | ⟨_, rfl⟩
  · exact .of_cb rfl
  · intro b' hc
    by_cases hbb : b = b'
    · subst hbb
      rw [answered_buffer]
      exact .inr ⟨hb.symm, h hc⟩
    · have hne : b.val ≠ b'.val := fun e => hbb (Fin.ext e)
      exact .inl (by simp [hne])

theorem usesBuffer_select {bodyOf : BufId → Result}
    (h : ∀ b : BufId, buf.toNat = b.val → Leads (UsesBuffer use buf s) (bodyOf b)) :
    Leads (UsesBuffer use buf s) (select s.par.nbuf buf s bodyOf) := by
  intro t ht
  rcases select_next ht with ⟨_, rfl⟩ | ⟨b, _, hb, ht⟩
  · exact .of_cb (refuse_cb _ _)
  · exact h b hb t ht

theorem usedAs_same {c : CircBuf} (hc : c.Ok) : c.UsedAs use { c with mx := false } :=
  (CircBuf.free_again hc).symm ▸ .same use

/-- The inertness test leaves an inert buffer as it is. -/
theorem usedAs_unlessInert {c : CircBuf} (hc : c.Ok)
    (h : c.cap ≠ 0 → c.UsedAs use { (body { c with mx := true }).1 with mx := false }) :
    c.UsedAs use { (unlessInert body { c with mx := true }).1 with mx := false } := by
  unfold unlessInert
  split
  · exact usedAs_same hc
  · exact h ‹_›

theorem usesBuffer_onBuffer
    (h : ∀ c : CircBuf, c.Ok → c.cap ≠ 0 → c.UsedAs use { (body { c with mx := true }).1 with mx := false }) :
    Leads (UsesBuffer use buf s) (onBuffer buf body s) :=
  usesBuffer_select fun _ hb => usesBuffer_critical hb fun hc => usedAs_unlessInert hc (h _ hc)

end

/-- A burst in the critical section. -/
theorem usedAs_addBytes {c : CircBuf} (hc : c.Ok) {bytes : List Byte} (hlen : bytes.length < c.cap) :
    c.UsedAs .produces { c.addBytes bytes with mx := false } :=
  (CircBuf.free_again (CircBuf.addBytes_ok hc (by omega) bytes)).symm ▸ .added bytes hlen

section
variable (buf : BitVec 8) (s : State)

theorem usesBuffer_execCbCreate (size : BitVec 32) : Leads (UsesBuffer .lifecycle buf s) (execCbCreate buf size s) :=
  usesBuffer_select fun _ hb => by
    split
    · exact .next (.of_cb (refuse_cb _ _))
    · exact usesBuffer_critical hb fun _ => .lifecycle _

theorem usesBuffer_execCbAddbyte (byte : Byte) : Leads (UsesBuffer .produces buf s) (execCbAddbyte buf byte s) :=
  usesBuffer_onBuffer fun c hc hcap => by
    have h2 := (hc.live hcap).1
    have h := usedAs_addBytes hc (bytes := [byte]) (by rw [List.length_singleton]; omega)
    rwa [← CircBuf.addByte_eq_addBytes hc hcap] at h

theorem usesBuffer_execCbAddbytes (len : BitVec 16) (burst : BitVec 96) :
    Leads (UsesBuffer .produces buf s) (execCbAddbytes buf len burst s) :=
  usesBuffer_select fun _ hb => by
    split
    · exact .next (.of_cb (refuse_cb _ _))
    · refine usesBuffer_critical hb fun hc => usedAs_unlessInert hc fun _ => ?_
      split
      · exact usedAs_same hc
      · exact usedAs_addBytes hc (by rw [burstBytes, length_burstBytesFrom]; exact Nat.lt_of_not_le ‹_›)

theorem usesBuffer_execCbReadbyte : Leads (UsesBuffer .consumes buf s) (execCbReadbyte buf s) :=
  usesBuffer_onBuffer fun _ hc _ => by
    split <;> exact usedAs_same hc

theorem usesBuffer_execCbNextbyte : Leads (UsesBuffer .consumes buf s) (execCbNextbyte buf s) :=
  usesBuffer_onBuffer fun _ hc hcap => by
    split
    · exact usedAs_same hc
    · exact (CircBuf.free_again (CircBuf.next_ok hc hcap)).symm ▸ .dropped hcap ‹_›

theorem usesBuffer_execCbArebytes : Leads (UsesBuffer .consumes buf s) (execCbArebytes buf s) :=
  usesBuffer_onBuffer fun _ hc _ => by
    split <;> exact usedAs_same hc

theorem usesBuffer_execCbCount : Leads (UsesBuffer .consumes buf s) (execCbCount buf s) :=
  usesBuffer_onBuffer fun _ hc _ => usedAs_same hc

end

/-- A command on a buffer uses it as its side does. -/
theorem exec_usesBuffer {i : Instr} {use : BufferUse} {buf : BitVec 8} (h : bufferUse i = some (use, buf)) (s : State) :
    Leads (UsesBuffer use buf s) (exec i s) := by
  cases i <;> cases h
  case cbCreate => exact usesBuffer_execCbCreate _ _ _
  case cbDestroy | cbReset => exact usesBuffer_select fun _ hb => usesBuffer_critical hb fun _ => .lifecycle _
  case cbAddbyte => exact usesBuffer_execCbAddbyte _ _ _
  case cbAddbytes => exact usesBuffer_execCbAddbytes _ _ _ _
  case cbReadbyte => exact usesBuffer_execCbReadbyte _ _
  case cbNextbyte => exact usesBuffer_execCbNextbyte _ _
  case cbArebytes => exact usesBuffer_execCbArebytes _ _
  case cbCount => exact usesBuffer_execCbCount _ _

/-- What any instruction but RESET can do to a buffer. -/
theorem exec_buffer {i : Instr} {s t : State} {b : BufId} (hi : i ≠ .reset) (hc : (s.cb[b]).Ok) (h : exec i s = .next t) :
    t.cb[b] = s.cb[b] ∨ ∃ use, bufferUse i = some (use, BitVec.ofNat 8 b.val) ∧ (s.cb[b]).UsedAs use t.cb[b] := by
  cases hu : bufferUse i with
  | none => exact .inl (by rw [exec_keepsBuffers s hi hu t h])
  | some u =>
    obtain ⟨use, buf⟩ := u
    refine (exec_usesBuffer hu s t h b hc).imp_right fun ⟨hb, hused⟩ => ⟨use, ?_, hused⟩
    rw [hb, BitVec.ofNat_toNat, BitVec.setWidth_eq]

/-- A buffer in its form holds at most `cap - 1` unread bytes (10_state.md R31, 41_circular_buffer.md R174). -/
theorem CircBuf.count_le {c : CircBuf} (hc : c.Ok) : c.count ≤ c.cap - 1 := by
  by_cases h : c.cap = 0
  · obtain ⟨hrd, hwr⟩ := hc.inert h
    rw [count, hrd, hwr, h]
  · exact Nat.le_sub_one_of_lt (count_lt h)

/-- What one side of a buffer leaves of it: the capacity, and, on the producing side, the last `cap - 1` of the unread bytes
and some more, on the other the store, the write cursor and all unread bytes but perhaps the oldest. -/
structure CircBuf.Kept (producing : Prop) (c c' : CircBuf) : Prop where
  cap : c'.cap = c.cap
  consumer : ¬ producing → c'.store = c.store ∧ c'.wr = c.wr ∧ ∃ n ≤ 1, c'.content = c.content.drop n
  producer : producing → ∃ added : List Byte,
    c'.content = (c.content ++ added.map some).drop ((c.content ++ added.map some).length - (c.cap - 1))

namespace CircBuf.Kept
variable {producing : Prop} {c : CircBuf}

/-- A buffer left alone loses nothing: what it holds fits. -/
theorem refl (hc : c.Ok) : Kept producing c c where
  cap := rfl
  consumer _ := ⟨rfl, rfl, 0, Nat.zero_le 1, rfl⟩
  producer _ := ⟨[], by simp [Nat.sub_eq_zero_of_le (count_le hc)]⟩

theorem addBytes (hc : c.Ok) {bytes : List Byte} (hlen : bytes.length < c.cap) (hp : producing) :
    Kept producing c (c.addBytes bytes) where
  cap := rfl
  consumer h := absurd hp h
  producer _ := ⟨bytes, by
    rw [content_addBytes hc hlen, List.length_append, List.length_map, length_content]⟩

theorem next (hc : c.Ok) (hcap : c.cap ≠ 0) (hne : c.next ≠ c.wr) (hp : ¬ producing) :
    Kept producing c { c with rd := c.next } where
  cap := rfl
  consumer _ := ⟨rfl, rfl, 1, Nat.le_refl 1, by rw [content_of_unread hc hcap hne, List.drop_one, List.tail_cons]⟩
  producer h := absurd h hp

end CircBuf.Kept

/-- Settles O24: under the contract the commands that add bytes come from the producing port and those that drop one from
the other; every other instruction leaves the buffer alone. -/
theorem bufferContract : Obligations.BufferContract := by
  intro producer i s t b hcontract hc hi hlife h
  have hkept : CircBuf.Kept (s.serving = producer b) s.cb[b] t.cb[b] := by
    rcases exec_buffer hi hc h with hsame | ⟨use, huse, hused⟩
    · rw [hsame]
      exact .refl hc
    · generalize t.cb[b] = c' at hused
      cases hused with
      | same => exact .refl hc
      | added bytes hlen => exact .addBytes hc hlen (hcontract.produces b huse)
      | dropped hcap hne => exact .next hc hcap hne (hcontract.consumes b huse)
      | lifecycle => exact absurd huse hlife
  exact ⟨hkept.cap, hkept.consumer, hkept.producer⟩

end Sys2Proof.Machine
end

section
namespace Sys2Proof.Machine

/-! ### Pins set -/

@[simp] theorem Pins.level_put (p : Pins) (l : IrqLine) (v : Bool) : (p.put l v).level l = v := by cases l <;> rfl

theorem Pins.level_put_other (p : Pins) {l m : IrqLine} (v : Bool) (h : m ≠ l) : (p.put l v).level m = p.level m := by
  cases l <;> cases m <;> simp [Pins.put, Pins.level] at h ⊢

@[simp] theorem Pins.put_level (p : Pins) (l : IrqLine) : p.put l (p.level l) = p := by cases l <;> rfl

@[simp] theorem Pins.put_put (p : Pins) (l : IrqLine) (v w : Bool) : (p.put l v).put l w = p.put l w := by
  cases l <;> rfl

theorem Pins.put_comm (p : Pins) {l m : IrqLine} (v w : Bool) (h : m ≠ l) :
    (p.put l v).put m w = (p.put m w).put l v := by
  cases l <;> cases m <;> simp [Pins.put] at h ⊢

/-! ### The registers of one ACIA -/

/-- The readable registers of ACIA `i` are those of unit `i + 1` (30_encoding.md R110, R112). -/
theorem readRegAt_acia {i : Fin 2} {unit : BitVec 8} (hunit : unit.toNat = i.val + 1) (p : Params) (reg : BitVec 16) :
    readRegAt p unit reg = aciaReadReg i reg.toNat := by
  unfold readRegAt
  rw [hunit]
  fin_cases i <;> rfl

theorem writeRegAt_acia {i : Fin 2} {unit : BitVec 8} {reg : BitVec 16} {r : WriteReg} (hunit : unit.toNat = i.val + 1)
    (hr : writeRegAt unit reg = some r) : r = .aciaCr i ∨ r = .aciaTdr i := by
  unfold writeRegAt at hr
  split at hr <;> rename_i hu _ <;> cases hr <;> rw [hunit] at hu
  case h_2 =>
    obtain rfl : i = 0 := by omega
    exact .inl rfl
  case h_3 =>
    obtain rfl : i = 0 := by omega
    exact .inr rfl
  case h_4 =>
    obtain rfl : i = 1 := by omega
    exact .inl rfl
  case h_5 =>
    obtain rfl : i = 1 := by omega
    exact .inr rfl
  all_goals omega

/-! ### What an instruction of one ACIA does not see -/

/-- What is beyond an ACIA: the other one, its two Agenda slots and its pin, and the disk line (42_acia.md R191). -/
structure Beyond where
  acia : Acia
  tx : Option AgEntry
  rx : Option AgEntry
  pin : Bool
  disk : Bool

/-- What is beyond an ACIA in a state, `j` being the other one. -/
def State.beyond (j : Fin 2) (s : State) : Beyond :=
  ⟨s.acia[j], s.ag[aciaTxId j], s.ag[aciaRxId j], s.pins.level (aciaLine j), s.pins.disk⟩

/-- The machine with all that replaced. -/
def State.replace (j : Fin 2) (x : Beyond) (s : State) : State :=
  { s with
    acia := s.acia.set j x.acia
    ag := (s.ag.set (aciaTxId j) x.tx).set (aciaRxId j) x.rx
    pins := (s.pins.put (aciaLine j) x.pin).put .disk x.disk }

theorem State.replace_beyond (j : Fin 2) (s : State) : s.replace j (s.beyond j) = s := by
  have hdisk : s.pins.put .disk s.pins.disk = s.pins := Pins.put_level s.pins .disk
  simp [State.replace, State.beyond, hdisk]

theorem State.beyond_replace (j : Fin 2) (x : Beyond) (s : State) : (s.replace j x).beyond j = x := by
  have hslots : (aciaRxId j).val ≠ (aciaTxId j).val := fun e => aciaTxId_ne_aciaRxId j (Fin.ext e.symm)
  have hline : ((s.pins.put (aciaLine j) x.pin).put .disk x.disk).level (aciaLine j) = x.pin := by
    rw [Pins.level_put_other _ _ (aciaLine_ne_disk j), Pins.level_put]
  have hdisk : ((s.pins.put (aciaLine j) x.pin).put .disk x.disk).disk = x.disk := rfl
  simp [State.replace, State.beyond, hline, hdisk, hslots]

/-- With the disk line as it is, only the other ACIA, its slots and its pin are replaced. -/
theorem State.replace_eq (j : Fin 2) (a : Acia) (tx rx : Option AgEntry) (pin : Bool) (s : State) :
    s.replace j ⟨a, tx, rx, pin, s.pins.disk⟩ =
      { s with
        acia := s.acia.set j a
        ag := (s.ag.set (aciaTxId j) tx).set (aciaRxId j) rx
        pins := s.pins.put (aciaLine j) pin } := by
  have hdisk : (s.pins.put (aciaLine j) pin).put .disk s.pins.disk = s.pins.put (aciaLine j) pin := by
    rw [Pins.put_comm _ _ _ (aciaLine_ne_disk j).symm]
    exact congrArg (Pins.put · (aciaLine j) pin) (Pins.put_level s.pins .disk)
  simp [State.replace, hdisk]

/-- A meaning that does not see what is beyond the ACIA: with it replaced, it does the same and leaves the replacement. -/
def Unaware (j : Fin 2) (body : State → Result) : Prop :=
  ∀ x s t, body s = .next t → body (s.replace j x) = .next (t.replace j x)

/-- Nor does it change any of that: the case of what stands there already. -/
theorem Unaware.beyond_eq {j : Fin 2} {body : State → Result} (h : Unaware j body) {s t : State}
    (ht : body s = .next t) : t.beyond j = s.beyond j := by
  have hsame := h (s.beyond j) s t ht
  rw [State.replace_beyond, ht] at hsame
  rw [Host.Outcome.next.inj hsame, State.beyond_replace]

/-! #### Answers and checks -/

section
variable {j : Fin 2} {x : Beyond} {s : State}

theorem replace_emit (e : Event) : (s.replace j x).emit e = (s.emit e).replace j x := rfl

theorem replace_answer (w : Word128) : (s.replace j x).answer w = (s.answer w).replace j x := by
  cases hs : s.serving <;> simp [State.answer, State.replace, hs]

theorem Unaware.respond {data : State → BitVec 32} {time : State → Clock} {f : State → State} (flags rcb : BitVec 8)
    (hdata : ∀ x s, data (s.replace j x) = data s) (htime : ∀ x s, time (s.replace j x) = time s)
    (hf : ∀ x s, f (s.replace j x) = (f s).replace j x) :
    Unaware j fun s => Machine.respond flags rcb (data s) (time s) (f s) := by
  intro x s t ht
  dsimp only
  rw [hdata, htime, hf, respond_next.1 ht, ← replace_answer]
  rfl

theorem Unaware.respondOk {f : State → State} (hf : ∀ x s, f (s.replace j x) = (f s).replace j x) :
    Unaware j fun s => Machine.respondOk (f s) := .respond OK 0 (fun _ _ => rfl) (fun _ _ => rfl) hf

theorem Unaware.raise (e : ErrCode) : Unaware j (raise e) := by
  intro x s t ht
  rw [raise_next.1 ht, refuse, ← replace_answer]
  rfl

theorem Unaware.ite {p : State → Prop} [DecidablePred p] {a b : State → Result}
    (hp : ∀ x s, p (s.replace j x) ↔ p s) (ha : Unaware j a) (hb : Unaware j b) :
    Unaware j fun s => if p s then a s else b s := by
  intro x s t ht
  have hpx := hp x s
  by_cases hs : p s
  · simp only [hs, hpx, if_true] at ht ⊢
    exact ha x s t ht
  · simp only [hs, hpx, if_false] at ht ⊢
    exact hb x s t ht

theorem Unaware.timed {body : State → Result} (now : Clock) (h : Unaware j body) :
    Unaware j fun s => timed now s body :=
  .ite (fun _ _ => .rfl) (.raise _) fun x s t ht => h x { s with now := now } t ht

theorem unaware_noRegister (unit : BitVec 8) : Unaware j (noRegister unit) :=
  .ite (fun _ _ => .rfl) (.raise _) (.raise _)

end

/-! #### The operations of the ACIA -/

section
variable {i j : Fin 2} (hij : i ≠ j)
include hij

theorem replace_acia (x : Beyond) (s : State) : (s.replace j x).acia[i] = s.acia[i] :=
  Vector.getElem_set_ne j.isLt i.isLt fun e => hij (Fin.ext e.symm)

theorem replace_modAcia (x : Beyond) (s : State) (f : Acia → Acia) :
    (s.replace j x).modAcia i f = (s.modAcia i f).replace j x := by
  have hne : j.val ≠ i.val := fun e => hij (Fin.ext e.symm)
  have hacia := replace_acia hij x s
  rw [State.modAcia, hacia]
  simp [State.modAcia, State.replace, Vector.set_comm _ _ hne]

theorem replace_setSlot (x : Beyond) (s : State) {c : CbId} (hc : c = aciaTxId i ∨ c = aciaRxId i)
    (e : Option AgEntry) :
    { s.replace j x with ag := (s.replace j x).ag.set c e } = ({ s with ag := s.ag.set c e } : State).replace j x := by
  obtain ⟨htt, htr, hrt, hrr⟩ := acia_slots_ne hij
  have htx : (aciaTxId j).val ≠ c.val := fun he => by
    rcases hc with rfl | rfl
    · exact htt (Fin.ext he.symm)
    · exact hrt (Fin.ext he.symm)
  have hrx : (aciaRxId j).val ≠ c.val := fun he => by
    rcases hc with rfl | rfl
    · exact htr (Fin.ext he.symm)
    · exact hrr (Fin.ext he.symm)
  simp only [State.replace]
  rw [Vector.set_comm _ _ hrx, Vector.set_comm _ _ htx]

theorem replace_cancel (x : Beyond) (s : State) {c : CbId} (hc : c = aciaTxId i ∨ c = aciaRxId i) :
    (s.replace j x).cancel c = (s.cancel c).replace j x := replace_setSlot hij x s hc none

theorem replace_schedule (x : Beyond) (s : State) {c : CbId} (hc : c = aciaTxId i ∨ c = aciaRxId i) (d : Clock)
    (p : Param) : (s.replace j x).schedule c d p = (s.schedule c d p).replace j x := replace_setSlot hij x s hc _

theorem replace_setPin (x : Beyond) (s : State) (v : Bool) :
    (s.replace j x).setPin (aciaLine i) v = (s.setPin (aciaLine i) v).replace j x := by
  have hline : aciaLine i ≠ aciaLine j := fun e => hij (aciaLine_injective e)
  have hlevel : (s.replace j x).pins.level (aciaLine i) = s.pins.level (aciaLine i) := by
    simp only [State.replace]
    rw [Pins.level_put_other _ _ (aciaLine_ne_disk i), Pins.level_put_other _ _ hline]
  have hput : (s.replace j x).pins.put (aciaLine i) v =
      ((s.pins.put (aciaLine i) v).put (aciaLine j) x.pin).put .disk x.disk := by
    simp only [State.replace]
    rw [Pins.put_comm _ _ _ (aciaLine_ne_disk i), Pins.put_comm _ _ _ hline]
  rw [setPin_eq, setPin_eq, pinEdge, hlevel, hput]
  rfl

theorem replace_checkIrq (x : Beyond) (s : State) : checkIrq i (s.replace j x) = (checkIrq i s).replace j x := by
  simp only [checkIrq, replace_modAcia hij, replace_acia hij, replace_setPin hij]

theorem replace_setControl (v : Byte) (x : Beyond) (s : State) :
    setControl i v (s.replace j x) = (setControl i v s).replace j x := by
  have hreset : aciaReset i (s.replace j x) = (aciaReset i s).replace j x := by
    rw [aciaReset, replace_modAcia hij, replace_cancel hij _ _ (.inl rfl), replace_cancel hij _ _ (.inr rfl),
      replace_checkIrq hij, aciaReset]
  unfold setControl
  dsimp only
  split
  · rw [hreset, replace_modAcia hij, replace_checkIrq hij]
  · rw [replace_modAcia hij, replace_checkIrq hij]

theorem replace_transmitTdr (x : Beyond) (s : State) :
    transmitTdr i (s.replace j x) = (transmitTdr i s).replace j x := by
  have hpar : ∀ u : State, (u.replace j x).par = u.par := fun _ => rfl
  simp only [transmitTdr, replace_modAcia hij, replace_checkIrq hij, replace_acia hij, hpar,
    replace_schedule hij _ _ (.inl rfl)]

theorem replace_writeTdr (v : Byte) (x : Beyond) (s : State) :
    writeTdr i v (s.replace j x) = (writeTdr i v s).replace j x := by
  have hnow : (s.replace j x).now = s.now := rfl
  unfold writeTdr
  simp only [hnow, replace_modAcia hij, replace_acia hij, replace_transmitTdr hij]
  split <;> exact replace_checkIrq hij x _

theorem replace_readRdr (x : Beyond) (s : State) : readRdr i (s.replace j x) = (readRdr i s).replace j x := by
  rw [readRdr, replace_modAcia hij, replace_checkIrq hij, readRdr]

theorem replace_aciaTxDone (x : Beyond) (s : State) :
    aciaTxDone i (s.replace j x) = (aciaTxDone i s).replace j x := by
  unfold aciaTxDone outputByte
  simp only [replace_emit, replace_acia hij, replace_modAcia hij, replace_transmitTdr hij]
  split <;> exact replace_checkIrq hij x _

theorem replace_aciaRxDone (x : Beyond) (s : State) :
    aciaRxDone i (s.replace j x) = (aciaRxDone i s).replace j x := by
  rw [aciaRxDone, replace_modAcia hij, replace_checkIrq hij, aciaRxDone]

theorem replace_receiveByte (b : Byte) (x : Beyond) (s : State) :
    receiveByte i b (s.replace j x) = (receiveByte i b s).replace j x := by
  have hpar : ∀ u : State, (u.replace j x).par = u.par := fun _ => rfl
  simp only [receiveByte, replace_modAcia hij, replace_acia hij, hpar, replace_schedule hij _ _ (.inr rfl)]

/-! #### The instructions of the ACIA -/

theorem unaware_readRegister {n : Nat} {r : ReadReg} (now : Clock) (hr : aciaReadReg i n = some r) :
    Unaware j (readRegister r now) := by
  have hacia := replace_acia hij
  unfold aciaReadReg at hr
  refine .timed now ?_
  split at hr <;> cases hr
  case h_2 =>
    exact .respond _ _ (fun x s => by rw [hacia]) (fun _ _ => rfl) (replace_readRdr hij)
  case h_7 =>
    exact .respond _ _ (fun _ _ => rfl) (fun x s => by rw [hacia]) fun _ _ => rfl
  all_goals exact .respond _ _ (fun x s => by rw [hacia]) (fun _ _ => rfl) fun _ _ => rfl

theorem unaware_writeRegister {r : WriteReg} (v : BitVec 32) (now : Clock) (hr : r = .aciaCr i ∨ r = .aciaTdr i) :
    Unaware j (writeRegister r v now) := by
  refine .ite (fun _ _ => .rfl) (.timed now ?_) (.raise _)
  rcases hr with rfl | rfl
  · exact .respondOk (replace_setControl hij _)
  · exact .respondOk (replace_writeTdr hij _)

theorem unaware_aciaRxbyte {sel : BitVec 8} (hsel : sel.toNat = i.val) (b : Byte) (now : Clock) :
    Unaware j (execAciaRxbyte sel b now) := by
  have hrun : execAciaRxbyte sel b now = fun s => timed now s fun s =>
      if (s.acia[i]).lineBusyRx then raise .busy s else respondOk (receiveByte i b s) :=
    funext fun s => select_ok i i.isLt hsel
  rw [hrun]
  exact .timed now (.ite (fun x s => by rw [replace_acia hij]) (.raise _) (.respondOk (replace_receiveByte hij b)))

/-- A completion of the ACIA's own. -/
theorem unaware_completion {c : CbId} (hc : c = aciaTxId i ∨ c = aciaRxId i) {f : State → State}
    (hf : ∀ x s, f (s.replace j x) = (f s).replace j x) :
    Unaware j (dispatchEntry c fun _ s => .next (f s)) := by
  intro x s t ht
  have hslot : (s.replace j x).ag[c] = s.ag[c] := by
    obtain ⟨htt, htr, hrt, hrr⟩ := acia_slots_ne hij
    rcases hc with rfl | rfl
    · exact (ag_set_other _ _ htr.symm).trans (ag_set_other _ _ htt.symm)
    · exact (ag_set_other _ _ hrr.symm).trans (ag_set_other _ _ hrt.symm)
  rw [dispatchEntry, hslot]
  rcases dispatchEntry_next ht with ⟨hnone, rfl⟩ | ⟨e, hsome, hbody⟩
  · rw [hnone]
  · rw [hsome, ← Host.Outcome.next.inj hbody, ← hf, ← replace_cancel hij x s hc]

theorem unaware_regRd {unit : BitVec 8} (hunit : unit.toNat = i.val + 1) (reg : BitVec 16) (now : Clock) :
    Unaware j (execRegRd unit reg now) := by
  have hregs := fun p => readRegAt_acia hunit p reg
  cases hr : aciaReadReg i reg.toNat with
  | none =>
    have hrun : execRegRd unit reg now = noRegister unit := funext fun s => by rw [execRegRd, hregs, hr]
    exact hrun ▸ unaware_noRegister unit
  | some r =>
    have hrun : execRegRd unit reg now = readRegister r now := funext fun s => by rw [execRegRd, hregs, hr]
    exact hrun ▸ unaware_readRegister hij now hr

theorem unaware_regWr {unit : BitVec 8} (hunit : unit.toNat = i.val + 1) (reg : BitVec 16) (v : BitVec 32)
    (now : Clock) : Unaware j (execRegWr unit reg v now) := by
  cases hr : writeRegAt unit reg with
  | none =>
    have hrun : execRegWr unit reg v now = noRegister unit := funext fun s => by rw [execRegWr, hr]
    exact hrun ▸ unaware_noRegister unit
  | some r =>
    have hrun : execRegWr unit reg v now = writeRegister r v now := funext fun s => by rw [execRegWr, hr]
    exact hrun ▸ unaware_writeRegister hij v now (writeRegAt_acia hunit hr)

end

/-- Settles O29: no instruction of an ACIA sees what is beyond it. -/
theorem aciaInstancesShareNothing : Obligations.AciaInstancesShareNothing := by
  intro s t i j v sel reg value now hij hsel op hop ht
  have hunaware : Unaware j (exec op) := by
    clear ht
    have hunit : (sel + 1).toNat = i.val + 1 := by
      have hone : (1 : Byte).toNat = 1 := rfl
      rw [BitVec.toNat_add, hsel, hone]
      omega
    have hread : ∀ n r, aciaReadReg i n = some r → Unaware j (readRegister r now) := fun n r =>
      unaware_readRegister hij now
    have hcr := unaware_writeRegister hij (v.setWidth 32) now (.inl rfl)
    have htdr := unaware_writeRegister hij (v.setWidth 32) now (.inr rfl)
    have htx := unaware_completion hij (.inl rfl) (replace_aciaTxDone hij)
    have hrx := unaware_completion hij (.inr rfl) (replace_aciaRxDone hij)
    revert op
    rw [List.forall_mem_append]
    constructor
    · simp only [List.forall_mem_cons]
      exact ⟨unaware_aciaRxbyte hij hsel v now, unaware_regRd hij hunit reg now, unaware_regWr hij hunit reg value now,
        nofun⟩
    · fin_cases i <;> simp only [Fin.zero_eta, Fin.mk_one, if_true, one_ne_zero, if_false, List.forall_mem_cons] <;>
        exact ⟨hcr, htdr, hread 1 _ rfl, hread 0 _ rfl, hread 2 _ rfl, hread 3 _ rfl, hread 4 _ rfl, hread 5 _ rfl,
          hread 6 _ rfl, htx, hrx, nofun⟩
  have hbeyond := hunaware.beyond_eq ht
  simp only [State.beyond, Beyond.mk.injEq] at hbeyond
  refine ⟨hbeyond, fun a tx rx pin => ?_⟩
  obtain ⟨_, _, _, _, hdisk⟩ := hbeyond
  have hreplaced := hunaware ⟨a, tx, rx, pin, s.pins.disk⟩ s t ht
  rw [State.replace_eq, ← hdisk, State.replace_eq] at hreplaced
  exact hreplaced

end Sys2Proof.Machine
end

section
namespace Sys2Proof.Machine

/-! ### An ACIA with its interrupt brought up to date -/

/-- The machine with one ACIA set, its interrupt flag and its pin at a level (42_acia.md R193). -/
def State.settle (s : State) (i : Fin 2) (a : Acia) (v : Bool) : State :=
  { s with
    acia := s.acia.set i { a with irq := v }
    pins := s.pins.put (aciaLine i) v
    trace := s.trace ++ pinEdge s (aciaLine i) v }

section
variable (s : State) (i : Fin 2) (a : Acia) (v : Bool)

theorem settle_acia : (s.settle i a v).acia[i] = { a with irq := v } := Vector.getElem_set_self i.isLt

/-- What the ACIA was before does not matter. -/
theorem settle_modAcia (f : Acia → Acia) : (s.modAcia i f).settle i a v = s.settle i a v := by
  simp only [State.settle, State.modAcia, Vector.set_set]
  rfl

/-- A second level makes an edge if it differs from the first. -/
theorem settle_settle (b : Acia) (w : Bool) :
    (s.settle i a v).settle i b w = { s.settle i b w with
      trace := s.trace ++ pinEdge s (aciaLine i) v ++ if v = w then [] else [.irq (aciaLine i) w] } := by
  simp only [State.settle, pinEdge, Vector.set_set, Pins.put_put, Pins.level_put]

theorem checkIrq_modAcia (f : Acia → Acia) :
    checkIrq i (s.modAcia i f) = s.settle i (f s.acia[i]) (f s.acia[i]).irqFormula := by
  have hacia : (s.modAcia i f).acia[i] = f s.acia[i] := by simp
  rw [checkIrq_eq, hacia, ← settle_modAcia s i _ _ f]
  rfl

/-- `CheckIrq` does nothing to an interrupt that is up to date. -/
theorem checkIrq_settle (h : a.irqFormula = v) : checkIrq i (s.settle i a v) = s.settle i a v := by
  have hformula : ({ a with irq := v } : Acia).irqFormula = v := h
  rw [checkIrq_eq, settle_acia, hformula]
  refine (settle_settle s i a v { a with irq := v } v).trans ?_
  rw [if_pos rfl, List.append_nil]
  rfl

end

/-! ### The writes of CR and TDR -/

section
variable {s : State} {now : Clock} (h : 0 ≤ s.par.sdiff now s.now)
include h

/-- A byte written to a register that is a byte wide. -/
theorem writeRegister_byte {r : WriteReg} (v : Byte) (hr : r ≠ .engineCfg) (hwidth : r.width s.par = 8) :
    writeRegister r (v.setWidth 32) now s = writeRule r (v.setWidth 32) { s with now := now } := by
  have hfits : (v.setWidth 32).toNat < 2 ^ r.width s.par := by
    rw [hwidth]
    exact toNat_setWidth_lt v (by decide)
  rw [writeRegister, if_pos (accepts_of_lt hr hfits), timed_ok h]

theorem exec_regWrAciaCr (i : Fin 2) (v : Byte) :
    exec (if i = 0 then .regWrAcia0Cr v now else .regWrAcia1Cr v now) s =
      respondOk (setControl i v { s with now := now }) := by
  have hrun : exec (if i = 0 then .regWrAcia0Cr v now else .regWrAcia1Cr v now) s =
      writeRegister (.aciaCr i) (v.setWidth 32) now s := by fin_cases i <;> rfl
  rw [hrun, writeRegister_byte h v (by simp) rfl, writeRule, setWidth_back v (by decide)]

theorem exec_regWrAciaTdr (i : Fin 2) (v : Byte) :
    exec (if i = 0 then .regWrAcia0Tdr v now else .regWrAcia1Tdr v now) s =
      respondOk (writeTdr i v { s with now := now }) := by
  have hrun : exec (if i = 0 then .regWrAcia0Tdr v now else .regWrAcia1Tdr v now) s =
      writeRegister (.aciaTdr i) (v.setWidth 32) now s := by fin_cases i <;> rfl
  rw [hrun, writeRegister_byte h v (by simp) rfl, writeRule, setWidth_back v (by decide)]

end

theorem divideOf_of_ne {v : Byte} (h : v.extractLsb' 0 2 ≠ 3) (old : ClockDivide) :
    divideOf v old =
      if v.extractLsb' 0 2 = 0 then .by1 else if v.extractLsb' 0 2 = 1 then .by16 else .by64 := by
  have htwo : ∀ d : BitVec 2, d ≠ 3 → d ≠ 0 → d ≠ 1 → d = 2 := by decide
  unfold divideOf
  split
  · rfl
  · split
    · rfl
    · exact if_pos (htwo _ h ‹_› ‹_›)

theorem divideOf_three {v : Byte} (h : v.extractLsb' 0 2 = 3) (old : ClockDivide) : divideOf v old = old := by
  rw [divideOf, h]
  rfl

/-- The master reset in full: no flag is left to interrupt (42_acia.md R192). -/
theorem aciaReset_eq (i : Fin 2) (s : State) :
    aciaReset i s = State.settle { s with ag := (s.ag.set (aciaTxId i) none).set (aciaRxId i) none } i
      (s.acia[i]).clearFlags false := by
  have hcancel : ((s.modAcia i Acia.clearFlags).cancel (aciaTxId i)).cancel (aciaRxId i) =
      State.modAcia { s with ag := (s.ag.set (aciaTxId i) none).set (aciaRxId i) none } i Acia.clearFlags := rfl
  have hformula : ∀ a : Acia, a.clearFlags.irqFormula = false := fun a => by simp [Acia.irqFormula, Acia.clearFlags]
  rw [aciaReset, hcancel, checkIrq_modAcia, hformula]

/-- Settles O25: the interrupt is that of the latched value; a master reset first lowers the pin, so that only the transmit
pattern makes another edge. -/
theorem aciaControlWrites : Obligations.AciaControlWrites := by
  intro s i v now h
  refine ⟨fun hv => ?_, fun hv => ?_⟩
  · rw [exec_regWrAciaCr h i v, setControl, if_neg hv, checkIrq_modAcia, ← divideOf_of_ne hv (s.acia[i]).clockDivide]
    rfl
  · have hformula : ∀ a : Acia, (({ a.clearFlags with irq := false } : Acia).control v).irqFormula =
        (v.extractLsb' 5 2 == 1) := fun a => by simp [Acia.irqFormula, Acia.control, Acia.clearFlags]
    have hedge : ∀ (l : IrqLine) (b : Bool), (if false = b then [] else [Event.irq l b]) =
        if b then [.irq l true] else [] := fun l b => by cases b <;> rfl
    rw [exec_regWrAciaCr h i v, setControl, if_pos hv, aciaReset_eq, checkIrq_modAcia, settle_acia, hformula,
      settle_settle, hedge, Acia.control, divideOf_three hv]
    rfl

/-! ### Transmitting -/

/-- `TransmitTDR` in full: the waiting byte moves on and the transmitter is ready again (42_acia.md R195). -/
theorem transmitTdr_eq (i : Fin 2) (s : State) :
    transmitTdr i s = State.settle
      { s with ag := s.ag.set (aciaTxId i) (some
          { fireTime := s.par.tadd s.now (s.par.cycles ((s.acia[i]).byteCycles s.par))
            param := BitVec.ofNat 32 i.val }) }
      i { s.acia[i] with tdrs := (s.acia[i]).tdr, tdre := true, lineBusyTx := true }
      ((s.acia[i]).txIrqEn || ((s.acia[i]).cr.getLsbD 7 && ((s.acia[i]).rdrf || (s.acia[i]).overrun))) := by
  rw [transmitTdr, checkIrq_modAcia]
  dsimp only
  rw [State.modAcia, settle_acia]
  simp [State.settle, State.schedule, Acia.irqFormula, Acia.transmissionTime, Acia.byteCycles, pinEdge]

/-- `TransmitTDR` leaves the interrupt up to date. -/
theorem checkIrq_transmitTdr (i : Fin 2) (s : State) : checkIrq i (transmitTdr i s) = transmitTdr i s := by
  rw [transmitTdr_eq]
  exact checkIrq_settle _ _ _ _ (by simp [Acia.irqFormula])

theorem exec_aciaTxDone {s : State} (i : Fin 2) {e : AgEntry} (he : s.ag[aciaTxId i] = some e) :
    exec (if i = 0 then .cbAcia0Tx else .cbAcia1Tx) s = .next (aciaTxDone i (s.cancel (aciaTxId i))) := by
  have hrun : exec (if i = 0 then .cbAcia0Tx else .cbAcia1Tx) s =
      dispatchEntry (aciaTxId i) (fun _ s => .next (aciaTxDone i s)) s := by fin_cases i <;> rfl
  rw [hrun, dispatchEntry, he]

/-- `WriteTDR` first latches the byte (42_acia.md R199). -/
def Acia.latch (v : Byte) (now : Clock) (a : Acia) : Acia := { a with tdr := v, tdre := false, lastTxWrite := now }

theorem writeTdr_eq (i : Fin 2) (v : Byte) (s : State) :
    writeTdr i v s = if (s.acia[i]).lineBusyTx then checkIrq i (s.modAcia i (Acia.latch v s.now))
      else transmitTdr i (s.modAcia i (Acia.latch v s.now)) := by
  have hline : ((s.modAcia i (Acia.latch v s.now)).acia[i]).lineBusyTx = (s.acia[i]).lineBusyTx := by simp [Acia.latch]
  rw [← hline, ← checkIrq_transmitTdr, ← apply_ite (checkIrq i)]
  rfl

theorem aciaTxDone_eq (i : Fin 2) (s : State) :
    aciaTxDone i s = if (s.acia[i]).tdre
      then checkIrq i ((s.emit (.txout i (s.acia[i]).tdrs)).modAcia i fun a => { a with lineBusyTx := false })
      else transmitTdr i (s.emit (.txout i (s.acia[i]).tdrs)) := by
  rw [← checkIrq_transmitTdr, ← apply_ite (checkIrq i)]
  rfl

/-- Settles O26: a byte on an idle line and one that waited go out by `TransmitTDR`, which a later `CheckIrq` does not add
to. -/
theorem aciaTransmits : Obligations.AciaTransmits := by
  refine ⟨fun s i v now h => ⟨fun hidle => ?_, fun hbusy => ?_⟩, fun s i e he => ⟨fun hwaits => ?_, fun hready => ?_⟩⟩
  · have hline : ¬ (s.acia[i]).lineBusyTx = true := Bool.eq_false_iff.1 hidle
    have hlatched : (State.modAcia { s with now := now } i (Acia.latch v now)).acia[i] = (s.acia[i]).latch v now := by
      simp
    rw [exec_regWrAciaTdr h i v, writeTdr_eq, if_neg hline, transmitTdr_eq, hlatched]
    exact congrArg respondOk (settle_modAcia { s with now := now, ag := _ } i _ _ (Acia.latch v now))
  · rw [exec_regWrAciaTdr h i v, writeTdr_eq, if_pos hbusy, checkIrq_modAcia]
    rfl
  · have hline : ¬ (s.acia[i]).tdre = true := Bool.eq_false_iff.1 hwaits
    rw [exec_aciaTxDone i he, aciaTxDone_eq, State.cancel_acia, if_neg hline, transmitTdr_eq]
    simp only [State.emit_ag, State.cancel_ag, Vector.set_set]
    rfl
  · have hformula : ({ s.acia[i] with lineBusyTx := false } : Acia).irqFormula =
        ((s.acia[i]).txIrqEn || ((s.acia[i]).cr.getLsbD 7 && ((s.acia[i]).rdrf || (s.acia[i]).overrun))) := by
      rw [Acia.irqFormula, hready, Bool.true_and]
    rw [exec_aciaTxDone i he, aciaTxDone_eq, State.cancel_acia, if_pos hready, checkIrq_modAcia, State.emit_acia,
      State.cancel_acia, hformula]
    rfl

/-! ### Receiving -/

theorem exec_aciaRxDone {s : State} (i : Fin 2) {e : AgEntry} (he : s.ag[aciaRxId i] = some e) :
    exec (if i = 0 then .cbAcia0Rx else .cbAcia1Rx) s = .next (aciaRxDone i (s.cancel (aciaRxId i))) := by
  have hrun : exec (if i = 0 then .cbAcia0Rx else .cbAcia1Rx) s =
      dispatchEntry (aciaRxId i) (fun _ s => .next (aciaRxDone i s)) s := by fin_cases i <;> rfl
  rw [hrun, dispatchEntry, he]

/-- A byte delivered or lost, as one record (42_acia.md R209): `RDR` is full either way. -/
theorem deliver_eq (a : Acia) : a.deliver = { a with
    lineBusyRx := false
    overrun := a.overrun || a.rdrf
    rdr := if a.rdrf then a.rdr else a.rdrs
    rdrf := true } := by
  unfold Acia.deliver
  split
  · rename_i hunread
    simp [hunread]
  · rename_i hread
    simp [hread]

theorem exec_aciaRxbyte {s : State} {now : Clock} {inst : BitVec 8} {i : Fin 2} (byte : Byte)
    (hi : inst.toNat = i.val) (h : 0 ≤ s.par.sdiff now s.now) :
    exec (.aciaRxbyte inst byte now) s =
      if (s.acia[i]).lineBusyRx then raise .busy { s with now := now }
      else respondOk (receiveByte i byte { s with now := now }) := by
  have hrun : exec (.aciaRxbyte inst byte now) s = execAciaRxbyte inst byte now s := rfl
  rw [hrun, execAciaRxbyte, select_ok i i.isLt hi, timed_ok h]

/-- Settles O27: ACIA_RXBYTE by its checks; the completion delivers and brings the interrupt up to date. -/
theorem aciaReceives : Obligations.AciaReceives := by
  refine ⟨fun s i inst byte now hi h => ⟨fun hidle => ?_, fun hbusy => ?_⟩, fun s inst byte now hbad => ?_,
    fun s i e he => ?_⟩
  · rw [exec_aciaRxbyte byte hi h, hidle, if_neg Bool.false_ne_true]
    refine congrArg (fun u => Host.Outcome.next (State.answer u _)) ?_
    simp [receiveByte, State.modAcia, State.schedule, Acia.transmissionTime, Acia.byteCycles]
  · rw [exec_aciaRxbyte byte hi h, if_pos hbusy]
    rfl
  · exact select_bad hbad
  · have hformula : (s.acia[i]).deliver.irqFormula =
        ((s.acia[i]).tdre && (s.acia[i]).txIrqEn || (s.acia[i]).cr.getLsbD 7) := by
      rw [deliver_eq]
      simp [Acia.irqFormula]
    have hslot : (s.cancel (aciaRxId i)).acia[i] = s.acia[i] := rfl
    rw [exec_aciaRxDone i he, aciaRxDone, checkIrq_modAcia, hslot, hformula, deliver_eq]
    rfl

end Sys2Proof.Machine
end

section
namespace Sys2Proof.Machine

/-! ### The register writes of the DMA -/

/-- A write of a value within its register's width, at a legal time, does the register's write rule. -/
theorem writeRegister_of_lt_width {s : State} {now : Clock} {r : WriteReg} {v : BitVec 32}
    (h : 0 ≤ s.par.sdiff now s.now) (hr : r ≠ .engineCfg) (hv : v.toNat < 2 ^ r.width s.par) :
    writeRegister r v now s = writeRule r v { s with now := now } := by
  rw [writeRegister, if_pos (accepts_of_lt hr hv), timed_ok h]

/-- `WriteMCR` by its two cases (43_dma.md R233). -/
theorem Dma.writeMcr_eq (v : BitVec 16) (d : Dma) : d.writeMcr v =
    if v.getLsbD 8 = d.mcr.getLsbD 8 then { d with mcr := v }
    else { d with mcr := v, sct := 0, bct := 0, idx := 0, sel := 0, drq := false, err := false } := by
  unfold Dma.writeMcr
  split <;> rfl

/-- Settles O31: each write passes the checks of width and time, and does its write rule. -/
theorem dmaRegisterWrites : Obligations.DmaRegisterWrites := by
  intro s now h
  refine ⟨fun v => ?_, fun n hn => ?_, fun a ha => ?_⟩
  · have hrun : exec (.regWrDmaMcr v now) s = writeRegister .dmaMcr (v.setWidth 32) now s := rfl
    have hv : (v.setWidth 32).toNat < 2 ^ WriteReg.dmaMcr.width s.par := toNat_setWidth_lt v (by decide)
    rw [hrun, writeRegister_of_lt_width h (r := .dmaMcr) nofun hv, writeRule, setWidth_back v (by decide),
      State.modDma, Dma.writeMcr_eq]
    rfl
  · exact writeRegister_of_lt_width h (r := .dmaSct) nofun hn
  · exact writeRegister_of_lt_width h (r := .dmaAddr) nofun ha

/-! ### One Drq -/

section
variable {s : State}

/-- A byte asked for inside a half comes from the FIFO (43_dma.md R240). -/
theorem drqOut_inner (hd : s.dma.mcr.getLsbD 8 = true) (hs : s.dma.sct ≠ 0) (h0 : s.dma.idx ≠ 0)
    (h15 : s.dma.idx ≠ 15) :
    drqOut s = (some ((s.dma.fifo[s.dma.sel])[s.dma.idx]),
      { s with dma := { s.dma with drq := false, idx := s.dma.idx + 1 } }) := by
  have hfill : fillHalf s = s := if_neg h0
  have htake : s.dma.takeByte s.par = { s.dma with idx := s.dma.idx + 1 } := if_neg h15
  rw [drqOut_accepted hd hs, hfill, State.modDma, htake]
  rfl

theorem drqIn_against (b : Byte) (hd : s.dma.mcr.getLsbD 8 = true) :
    drqIn b s = { s with dma := { s.dma with drq := true, err := true } } := if_pos hd

theorem drqOut_against (hd : s.dma.mcr.getLsbD 8 = false) :
    drqOut s = (none, { s with dma := { s.dma with drq := true, err := true } }) := if_neg (Bool.eq_false_iff.1 hd)

theorem drqIn_exhausted (b : Byte) (hd : s.dma.mcr.getLsbD 8 = false) (hs : s.dma.sct = 0) :
    drqIn b s = { s with dma := { s.dma with drq := true } } := (if_neg (Bool.eq_false_iff.1 hd)).trans (if_pos hs)

theorem drqOut_exhausted (hd : s.dma.mcr.getLsbD 8 = true) (hs : s.dma.sct = 0) :
    drqOut s = (none, { s with dma := { s.dma with drq := true } }) := (if_pos hd).trans (if_pos hs)

end

/-- Settles O32: a call is against the direction, past the counter, or moves its byte. -/
theorem drqIsRefusedOrMovesOneByte : Obligations.DrqIsRefusedOrMovesOneByte := fun _ b =>
  ⟨fun hd => ⟨drqIn_against b hd, drqOut_exhausted hd, drqOut_inner hd⟩,
    fun hd => ⟨drqOut_against hd, drqIn_exhausted b hd, drqIn_inner b hd⟩⟩

end Sys2Proof.Machine
end

section
namespace Sys2Proof.Machine

/-! ### Bytes given to the DMA, list by list -/

theorem drqInAll_append_list (l l' : List Byte) (s : State) : drqInAll (l ++ l') s = drqInAll l' (drqInAll l s) := by
  induction l generalizing s with
  | nil => rfl
  | cons b l ih => exact ih (drqIn b s)

/-- Only what an address is modulo the address space matters to a list of bytes written. -/
theorem Memory.writeBytes_addrAt_zero (p : Params) (m : List Host.Cell) (a : Addr) (l : List Byte) :
    Memory.writeBytes p m (p.addrAt a 0) l = Memory.writeBytes p m a l := by
  cases l with
  | nil => rfl
  | cons b l => simp only [Memory.writeBytes, addrAt_addrAt, Nat.zero_add]

theorem Memory.writeBytes_append (p : Params) (m : List Host.Cell) (a : Addr) (l l' : List Byte) :
    Memory.writeBytes p m a (l ++ l') =
      Memory.writeBytes p (Memory.writeBytes p m a l) (p.addrAt a l.length) l' := by
  induction l generalizing m a with
  | nil => exact (Memory.writeBytes_addrAt_zero p m a l').symm
  | cons b l ih =>
    rw [List.cons_append, Memory.writeBytes, ih, addrAt_addrAt, Nat.add_comm 1, List.length_cons]
    rfl

theorem portEvents_append (p : Params) (event : Addr → Byte → Event) (a : Addr) (l l' : List Byte) :
    portEvents p event a (l ++ l') = portEvents p event a l ++ portEvents p event (p.addrAt a l.length) l' := by
  simp only [portEvents_eq_mapIdx, List.mapIdx_append, addrAt_addrAt, Nat.add_comm]

/-- The state with a list of bytes delivered to memory from the DMA's address on, and the controller then at `d`. -/
def State.delivered (s : State) (l : List Byte) (d : Dma) : State :=
  { s with
    mem := Memory.writeBytes s.par s.mem s.dma.addr l
    trace := s.trace ++ portEvents s.par .memw s.dma.addr l
    dma := d }

/-- Two deliveries are one, the second going on where the first stopped. -/
theorem delivered_delivered (s : State) (l l' : List Byte) {d : Dma} (d' : Dma)
    (hd : d.addr = s.par.addrAt s.dma.addr l.length) :
    (s.delivered l d).delivered l' d' = s.delivered (l ++ l') d' := by
  simp only [State.delivered, hd, Memory.writeBytes_append, portEvents_append, List.append_assoc]

/-! ### A sector given to the DMA -/

theorem exists_half {l : List Byte} (hl : l.length = 16) : ∃ v : Vector Byte 16, v.toList = l :=
  ⟨⟨l.toArray, hl⟩, rfl⟩

theorem exists_front_half {n : Nat} {l : List Byte} (hl : l.length = 16 * (n + 1)) :
    ∃ (front : List Byte) (v : Vector Byte 16), front.length = 16 * n ∧ l = front ++ v.toList := by
  obtain ⟨v, hv⟩ := exists_half (l := l.drop (16 * n)) (by rw [List.length_drop]; omega)
  refine ⟨l.take (16 * n), v, ?_, ?_⟩
  · rw [List.length_take]
    omega
  · rw [hv, List.take_append_drop]

/-- The controller with the first `n` halves of a sector delivered (43_dma.md R239). -/
def Dma.afterHalves (p : Params) (d : Dma) (n : Nat) (fifo : Vector (Vector Byte 16) 2) : Dma :=
  { d with
    fifo := fifo
    addr := p.addrAt d.addr (16 * n)
    sel := (fun h => 1 - h)^[n] d.sel
    drq := false
    bct := BitVec.ofNat 10 (16 * n) }

theorem byteCount_add (n : Nat) : BitVec.ofNat 10 (16 * n) + 16 = BitVec.ofNat 10 (16 * (n + 1)) := by
  rw [Nat.mul_add, BitVec.ofNat_add]
  rfl

section
variable {p : Params} (hbytes : p.dmaSectorBytes = 512)
include hbytes

theorem Dma.halfDone_first {d : Dma} (hb : d.bct = 0) (fifo : Vector (Vector Byte 16) 2) :
    Dma.halfDone p { d with fifo := fifo } = d.afterHalves p 1 fifo := by
  rw [Dma.halfDone, hbytes, hb]
  rfl

theorem Dma.halfDone_inner (d : Dma) {n : Nat} (hn : n < 31) (fifo fifo' : Vector (Vector Byte 16) 2) :
    Dma.halfDone p { d.afterHalves p n fifo with fifo := fifo' } = d.afterHalves p (n + 1) fifo' := by
  have hcount : BitVec.ofNat 10 (16 * (n + 1)) ≠ 512 := fun e => by
    have hval : 16 * (n + 1) % 1024 = 512 := congrArg BitVec.toNat e
    omega
  have hnext : 16 * n + 16 = 16 * (n + 1) := rfl
  simp only [Dma.halfDone, Dma.afterHalves, hbytes, byteCount_add, if_neg hcount, addrAt_addrAt, hnext,
    Function.iterate_succ_apply']

/-- The half that fills a sector counts it and leaves the halves as they stood at its beginning. -/
theorem Dma.halfDone_sector {d : Dma} (hb : d.bct = 0) (fifo fifo' : Vector (Vector Byte 16) 2) :
    Dma.halfDone p { d.afterHalves p 31 fifo with fifo := fifo' } =
      { d with fifo := fifo', addr := p.addrAt d.addr 512, drq := false, sct := d.sct - 1 } := by
  have hturn : Function.Involutive fun h : Fin 2 => 1 - h := by
    unfold Function.Involutive
    decide
  have hsel : 1 - (fun h : Fin 2 => 1 - h)^[31] d.sel = d.sel := by
    rw [← Function.iterate_succ_apply' (fun h : Fin 2 => 1 - h), hturn.iterate_even (by decide)]
    rfl
  have hcount : BitVec.ofNat 10 (16 * 31) + 16 = 512 := by decide
  simp only [Dma.halfDone, Dma.afterHalves, hbytes, if_pos hcount, addrAt_addrAt, hsel, ← hb]

end

section
variable {s : State} (hd : s.dma.mcr.getLsbD 8 = false) (hs : s.dma.sct ≠ 0) (hi : s.dma.idx = 0)
include hd hs hi

/-- One more half inside a sector goes to memory behind the ones before it. -/
theorem drqInAll_next_half {l : List Byte} {n : Nat} (hl : l.length = 16 * n) (fifo : Vector (Vector Byte 16) 2)
    (v : Vector Byte 16) : ∃ fifo', drqInAll v.toList (s.delivered l (s.dma.afterHalves s.par n fifo)) =
      s.delivered (l ++ v.toList) (Dma.halfDone s.par { s.dma.afterHalves s.par n fifo with fifo := fifo' }) := by
  have haddr : (s.dma.afterHalves s.par n fifo).addr = s.par.addrAt s.dma.addr l.length := by rw [hl]; rfl
  have hhalf := drqInAll_half (s := s.delivered l (s.dma.afterHalves s.par n fifo)) v hd hs hi
  exact ⟨_, hhalf.trans (delivered_delivered s l v.toList _ haddr)⟩

variable (hbytes : s.par.dmaSectorBytes = 512) (hb : s.dma.bct = 0)
include hbytes hb

/-- The halves of a sector but its last go to memory, one after another. -/
theorem drqInAll_halves {n : Nat} (hn : n < 31) {l : List Byte} (hl : l.length = 16 * (n + 1)) :
    ∃ fifo, drqInAll l s = s.delivered l (s.dma.afterHalves s.par (n + 1) fifo) := by
  induction n generalizing l with
  | zero =>
    obtain ⟨v, rfl⟩ := exists_half hl
    refine ⟨s.dma.fifo.set s.dma.sel v, ?_⟩
    rw [drqInAll_half v hd hs hi, Dma.halfDone_first hbytes hb]
    rfl
  | succ n ih =>
    obtain ⟨front, v, hfront, rfl⟩ := exists_front_half hl
    obtain ⟨fifo, hbefore⟩ := ih (by omega) hfront
    obtain ⟨fifo', hlast⟩ := drqInAll_next_half hd hs hi hfront fifo v
    refine ⟨fifo', ?_⟩
    rw [drqInAll_append_list, hbefore, hlast, Dma.halfDone_inner hbytes _ hn]

/-- A sector of 512 bytes given to the DMA, in full (43_dma.md R237 to R239). -/
theorem drqInAll_sector {l : List Byte} (hl : l.length = 512) :
    ∃ fifo, drqInAll l s = s.delivered l
      { s.dma with fifo := fifo, addr := s.par.addrAt s.dma.addr 512, drq := false, sct := s.dma.sct - 1 } := by
  obtain ⟨front, v, hfront, rfl⟩ := exists_front_half (n := 31) hl
  obtain ⟨fifo, hbefore⟩ := drqInAll_halves hd hs hi hbytes hb (n := 30) (by decide) hfront
  obtain ⟨fifo', hlast⟩ := drqInAll_next_half hd hs hi hfront fifo v
  refine ⟨fifo', ?_⟩
  rw [drqInAll_append_list, hbefore, hlast, Dma.halfDone_sector hbytes hb]

end

/-! ### The end of a floppy transfer -/

theorem exec_fddXfer {s : State} (d : Fin 2) {e : AgEntry} (he : s.ag[fddXferId d] = some e) :
    exec (if d = 0 then .cbFdd0Xfer else .cbFdd1Xfer) s = .next (fddXferDone d (s.cancel (fddXferId d))) := by
  have hrun : exec (if d = 0 then .cbFdd0Xfer else .cbFdd1Xfer) s =
      dispatchEntry (fddXferId d) (fun _ s => .next (fddXferDone d s)) s := by fin_cases d <;> rfl
  rw [hrun, dispatchEntry, he]

/-- A finished read gives its bytes to the DMA, frees the drive and raises the interrupt (44_floppy.md R275). -/
theorem fddXferDone_of_reading {s : State} {d : Fin 2} (h : (s.fdd[driveSlot d]).reading = true) :
    fddXferDone d s = ((drqInAll (s.fdd[driveSlot d]).xfBuf s).modFdd (driveSlot d) fun f =>
      { f with reading := false }).setPin .disk true := by
  rw [fddXferDone, if_pos h, finishRead]

/-- Settles O41: the read's bytes are one sector given to the DMA, which fits the address space. -/
theorem floppySectorReachesMemory : Obligations.FloppySectorReachesMemory := by
  intro s d e he hp hw hm hbytes hread hlen hd hs hi hb
  have hroom : (s.fdd[driveSlot d]).xfBuf.length ≤ 2 ^ s.par.dmaAddrW := by
    rw [hlen]
    exact Nat.pow_le_pow_right (by decide) hw (n := 2)
  obtain ⟨fifo, hsector⟩ := drqInAll_sector (s := s.cancel (fddXferId d)) hd hs hi hbytes hb hlen
  have hdone := fddXferDone_of_reading (s := s.cancel (fddXferId d)) hread
  have hbuf : (s.cancel (fddXferId d)).fdd[driveSlot d] = s.fdd[driveSlot d] := rfl
  rw [hbuf, hsector, setPin_eq] at hdone
  refine ⟨_, (exec_fddXfer d he).trans (congrArg _ hdone), fun k => ?_, fun a ha => ?_, rfl, hb, hi, rfl, rfl, rfl, rfl,
    ?_, ?_, rfl⟩
  · have hk : k.val < (s.fdd[driveSlot d]).xfBuf.length := lt_of_lt_of_eq k.isLt hlen.symm
    rw [List.getElem?_eq_getElem hk]
    exact congrArg some (Memory.read_writeBytes s.par hp.address.2 _ s.mem s.dma.addr hm hroom k.val hk)
  · refine Memory.read_writeBytes_outside s.par hp.address.2 _ s.mem s.dma.addr a fun k hk => ?_
    exact ha ⟨k, hlen ▸ hk⟩
  · simp
  · exact Vector.getElem_set_self _

end Sys2Proof.Machine
end

section
namespace Sys2Proof.Machine

/-! ### One block written to an image -/

/-- A failing call leaves the image as it was (20_memory.md R78). -/
theorem writeBlock_failing {k : Dev} {h : Handle} {s : State} (hk : (s.acsi[k]).image = some h) (n : Sector)
    (bytes : List Byte) (hfail : s.disks.ioFail.head? = some true) :
    writeBlock k n bytes s = (false, (popFail s).emit (.imgWrite h n bytes false)) := by
  have hnext : nextFails s = true := by rw [nextFails, hfail, Option.getD_some]
  rw [writeBlock, hk]
  dsimp only
  rw [imgWrite, hnext]
  rfl

theorem writeBlock_good {k : Dev} {h : Handle} {s : State} (hk : (s.acsi[k]).image = some h) (n : Sector)
    (bytes : List Byte) (hgood : s.disks.ioFail.head? ≠ some true) :
    writeBlock k n bytes s = (true, (putImage h n bytes (popFail s)).emit (.imgWrite h n bytes true)) := by
  have hnext : nextFails s = false := by
    rw [nextFails]
    cases hhead : s.disks.ioFail.head? with
    | none => rfl
    | some b => exact Bool.eq_false_iff.2 fun hb => hgood (hhead.trans (congrArg some hb))
  rw [writeBlock, hk]
  dsimp only
  rw [imgWrite, hnext]
  rfl

/-! ### Formatting -/

/-- The images with the first `n` sectors of one filled. -/
def fillSectors (h : Handle) (fill : List Byte) (image : List (Nat × List Byte)) : Nat → List (Nat × List Byte)
  | 0 => image
  | n + 1 => storePut (fillSectors h fill image n) (sectorKey h (BitVec.ofNat 32 n)) fill

theorem storeFind_fillSectors (h : Handle) (fill : List Byte) (image : List (Nat × List Byte)) {n j : Nat}
    (hj : j < n) :
    storeFind (fillSectors h fill image n) (sectorKey h (BitVec.ofNat 32 j)) = some fill := by
  induction n with
  | zero => exact absurd hj (Nat.not_lt_zero j)
  | succ n ih =>
    rw [fillSectors]
    by_cases hkey : sectorKey h (BitVec.ofNat 32 j) = sectorKey h (BitVec.ofNat 32 n)
    · rw [hkey, storeFind_put_self]
    · have hne : j ≠ n := fun e => hkey (by rw [e])
      rw [storeFind_put_other _ _ _ _ hkey, ih (by omega)]

theorem storeFind_fillSectors_other (h : Handle) (fill : List Byte) (image : List (Nat × List Byte)) {n key : Nat}
    (hkey : ∀ j < n, key ≠ sectorKey h (BitVec.ofNat 32 j)) :
    storeFind (fillSectors h fill image n) key = storeFind image key := by
  induction n with
  | zero => rfl
  | succ n ih =>
    rw [fillSectors, storeFind_put_other _ _ _ _ (hkey n (by omega)), ih fun j hj => hkey j (by omega)]

/-- The state with the first `n` sectors of an image filled, by one good call each (45_acsi.md R309). -/
def State.formatted (s : State) (h : Handle) (fill : List Byte) (n : Nat) : State :=
  { s with
    disks := { s.disks with image := fillSectors h fill s.disks.image n, ioFail := s.disks.ioFail.drop n }
    trace := s.trace ++ (List.range n).map fun j => .imgWrite h (BitVec.ofNat 32 j) fill true }

section
variable {k : Dev} {h : Handle} {s : State} (hk : (s.acsi[k]).image = some h)
include hk

/-- One more good call fills one more sector. -/
theorem writeBlock_formatted (fill : List Byte) {n : Nat} (hgood : s.disks.ioFail[n]? ≠ some true) :
    writeBlock k (BitVec.ofNat 32 n) fill (s.formatted h fill n) = (true, s.formatted h fill (n + 1)) := by
  have hhead : (s.formatted h fill n).disks.ioFail.head? ≠ some true := by
    rw [State.formatted, List.head?_drop]
    exact hgood
  rw [writeBlock_good (s := s.formatted h fill n) hk _ _ hhead]
  simp only [State.formatted, List.range_succ, List.map_append, ← List.append_assoc, ← List.tail_drop]
  rfl

theorem writeBlock_formatted_failing (fill : List Byte) {n : Nat} (hfail : s.disks.ioFail[n]? = some true) :
    writeBlock k (BitVec.ofNat 32 n) fill (s.formatted h fill n) =
      (false, (popFail (s.formatted h fill n)).emit (.imgWrite h (BitVec.ofNat 32 n) fill false)) :=
  writeBlock_failing (s := s.formatted h fill n) hk _ _ (by rw [State.formatted, List.head?_drop]; exact hfail)

/-- While the calls are good, the sectors are filled in ascending order. -/
theorem formatSectors_good {n : Nat} (hgood : ∀ j < n, s.disks.ioFail[j]? ≠ some true) (left : Nat) :
    formatSectors k (n + left) 0 s = formatSectors k left (BitVec.ofNat 32 n)
      (s.formatted h (List.replicate s.par.acsiBlockBytes Config.acsiFill) n) := by
  induction n generalizing left with
  | zero =>
    have hnone : s.formatted h (List.replicate s.par.acsiBlockBytes Config.acsiFill) 0 = s := by
      simp [State.formatted, fillSectors]
    rw [hnone, Nat.zero_add]
    rfl
  | succ n ih =>
    have hstep := writeBlock_formatted hk (List.replicate s.par.acsiBlockBytes Config.acsiFill) (hgood n (by omega))
    have hpar : (s.formatted h (List.replicate s.par.acsiBlockBytes Config.acsiFill) n).par = s.par := rfl
    rw [Nat.add_assoc, Nat.add_comm 1, ih (fun j hj => hgood j (by omega)), formatSectors, hpar, hstep,
      BitVec.ofNat_add]
    rfl

/-- A failing call stops the filling, with an error of the device and of the DMA (45_acsi.md R309). -/
theorem formatSectors_failing {n : Nat} (hgood : ∀ j < n, s.disks.ioFail[j]? ≠ some true)
    (hfail : s.disks.ioFail[n]? = some true) (left : Nat) :
    formatSectors k (n + (left + 1)) 0 s =
      let fill := List.replicate s.par.acsiBlockBytes Config.acsiFill
      dmaError (acsiReport k s.par.acsiStErr s.par.acsiEWrite
        ((popFail (s.formatted h fill n)).emit (.imgWrite h (BitVec.ofNat 32 n) fill false))) := by
  have hstep := writeBlock_formatted_failing hk (List.replicate s.par.acsiBlockBytes Config.acsiFill) hfail
  have hpar : (s.formatted h (List.replicate s.par.acsiBlockBytes Config.acsiFill) n).par = s.par := rfl
  rw [formatSectors_good hk hgood, formatSectors, hpar, hstep]
  rfl

end

/-! ### ACSI_FORMAT -/

theorem acsiBegin_device (k : Dev) (s : State) : (acsiBegin k s).acsi[k] =
    { s.acsi[k] with status := s.par.acsiStOk, error := s.par.acsiENone } := by
  simp [acsiBegin, acsiReport]

/-- A command's end and its answer, in full (45_acsi.md R305, R306). -/
theorem acsiAnswer_acsiFinish (k : Dev) (s : State) :
    acsiAnswer (acsiFinish k s) = .next (State.answer { s with
        acsi := s.acsi.set k { s.acsi[k] with phase := 7 }
        acsiPending := none
        pins := { s.pins with disk := true }
        trace := s.trace ++ pinEdge s .disk true }
      (respWord 0 1 0 0 0)) := by
  rw [acsiAnswer, acsiFinish, setPin_eq]
  rfl

theorem exec_acsiFormat (k : Dev) (lba : BitVec 24) (count ctrl : Byte) (s : State) :
    exec (.acsiFormat k lba count ctrl) s =
      acsiAnswer (acsiFinish k (formatSectors k (s.acsi[k]).sectors.toNat 0 (acsiBegin k s))) := by
  have hrun : exec (.acsiFormat k lba count ctrl) s = execAcsiFormat k lba count ctrl s := rfl
  rw [hrun, execAcsiFormat, acsiBegin_device]

/-- The state when the filling ends behind `n` sectors, with or without a failing call (45_acsi.md R309). -/
def State.filledUp (s : State) (k : Dev) (h : Handle) (n : Nat) (fails : Prop) [Decidable fails] : State :=
  let fill := List.replicate s.par.acsiBlockBytes Config.acsiFill
  { s with
    acsi := s.acsi.set k { s.acsi[k] with
      status := if fails then s.par.acsiStErr else s.par.acsiStOk
      error := if fails then s.par.acsiEWrite else s.par.acsiENone }
    dma := { s.dma with err := s.dma.err || fails }
    disks := { s.disks with
      image := fillSectors h fill s.disks.image n
      ioFail := s.disks.ioFail.drop (if fails then n + 1 else n) }
    trace := s.trace ++ (List.range n).map (fun j => .imgWrite h (BitVec.ofNat 32 j) fill true) ++
      if fails then [.imgWrite h (BitVec.ofNat 32 n) fill false] else [] }

/-- The filling from the beginning of the command: it stops at the failing call, or at the last sector. -/
theorem formatSectors_eq_filledUp {k : Dev} {h : Handle} {s : State} {n total : Nat} (hk : (s.acsi[k]).image = some h)
    (hn : n ≤ total) (hgood : ∀ j < n, s.disks.ioFail[j]? ≠ some true)
    (hfail : n < total → s.disks.ioFail[n]? = some true) :
    formatSectors k total 0 (acsiBegin k s) = s.filledUp k h n (n < total) := by
  have hbegun : ((acsiBegin k s).acsi[k]).image = some h := by
    rw [acsiBegin_device]
    exact hk
  by_cases hf : n < total
  · obtain ⟨left, rfl⟩ := Nat.exists_eq_add_of_lt hf
    rw [Nat.add_assoc, formatSectors_failing hbegun hgood (hfail hf)]
    simp [State.filledUp, dmaError, State.modDma, State.formatted, acsiReport, acsiBegin, State.modAcsi, popFail,
      State.emit]
  · obtain rfl : n = total := by omega
    rw [← Nat.add_zero n, formatSectors_good hbegun hgood]
    simp [State.filledUp, formatSectors, State.formatted, acsiReport, acsiBegin, State.modAcsi]

/-- Settles O48: the command fills up and then finishes the device. -/
theorem formatFillsEverySector : Obligations.FormatFillsEverySector := by
  intro s k lba count ctrl h n hk hn hgood hfail fill fails
  have hfinish : ∀ a : AcsiDev, (s.acsi.set k a).set k { (s.acsi.set k a)[k] with phase := 7 } =
      s.acsi.set k { a with phase := 7 } := fun a => by simp
  have hrun := exec_acsiFormat k lba count ctrl s
  rw [formatSectors_eq_filledUp hk hn hgood hfail, acsiAnswer_acsiFinish] at hrun
  refine ⟨_, hrun, ?_⟩
  simp only [State.answer_acsi, State.answer_dma, State.answer_pins, State.answer_mem, State.answer_ag,
    State.answer_disks, State.answer_trace]
  refine ⟨hfinish _, rfl, rfl, rfl, rfl, rfl, rfl, fun j hj => ?_, fun key hkey => ?_⟩
  · exact storeFind_fillSectors h fill s.disks.image hj
  · exact storeFind_fillSectors_other h fill s.disks.image hkey

end Sys2Proof.Machine
end

section
namespace Sys2Proof.Machine

/-! ### The oracle's calls for a drive -/

theorem nextFails_iff (s : State) : nextFails s = true ↔ s.disks.ioFail.head? = some true := by
  unfold nextFails
  cases s.disks.ioFail.head? <;> simp

theorem nextFails_eq_false {s : State} (h : s.disks.ioFail.head? ≠ some true) : nextFails s = false :=
  Bool.eq_false_iff.2 fun hn => h ((nextFails_iff s).1 hn)

/-- The call that gives a sector of a disk to its overlay, if it has one, or to its image (44_floppy.md R279). -/
def Fdd.storeEvent (f : Fdd) (h : Handle) (bytes : List Byte) (ok : Bool) : Event :=
  if f.ghost then .ghostWrite h f.xfSector bytes ok else .imgWrite h f.xfSector bytes ok

section
variable {s : State} {d : Fin 2} {h : Handle} (hdisk : (s.fdd[driveSlot d]).disk = some h) (bytes : List Byte)
include hdisk

theorem storeSector_of_disk : storeSector d bytes s =
    if (s.fdd[driveSlot d]).ghost then ghostWrite h (s.fdd[driveSlot d]).xfSector bytes s
    else imgWrite h (s.fdd[driveSlot d]).xfSector bytes s := by
  unfold storeSector
  dsimp only
  rw [hdisk]

/-- A failing call leaves image and overlay as they were (20_memory.md R78). -/
theorem storeSector_failing (hfail : s.disks.ioFail.head? = some true) : storeSector d bytes s =
    (false, (popFail s).emit ((s.fdd[driveSlot d]).storeEvent h bytes false)) := by
  have hnext := (nextFails_iff s).2 hfail
  rw [storeSector_of_disk hdisk, ghostWrite, imgWrite, hnext, Fdd.storeEvent]
  split <;> rfl

theorem storeSector_good (hgood : s.disks.ioFail.head? ≠ some true) : storeSector d bytes s =
    (true, State.emit { popFail s with
        disks :=
          if (s.fdd[driveSlot d]).ghost then (putGhost h (s.fdd[driveSlot d]).xfSector bytes (popFail s)).disks
          else (putImage h (s.fdd[driveSlot d]).xfSector bytes (popFail s)).disks }
      ((s.fdd[driveSlot d]).storeEvent h bytes true)) := by
  rw [storeSector_of_disk hdisk, ghostWrite, imgWrite, nextFails_eq_false hgood, Fdd.storeEvent]
  split <;> rfl

end

/-! ### Bytes asked of the DMA -/

theorem allBytes_of_missing {l : List (Option Byte)} (h : none ∈ l) : allBytes l = none := by
  induction l with
  | nil => cases h
  | cons b l ih =>
    cases b with
    | none => rfl
    | some b => rw [allBytes, ih (by simpa using h), Option.map_none]

theorem allBytes_map_some (l : List Byte) : allBytes (l.map some) = some l := by
  induction l with
  | nil => rfl
  | cons b l ih => rw [List.map_cons, allBytes, ih, Option.map_some]

/-! ### The end of a write -/

theorem modFdd_modFdd (s : State) (d : Fin 3) (f g : Fdd → Fdd) :
    (s.modFdd d f).modFdd d g = s.modFdd d fun a => g (f a) := by
  simp [State.modFdd]

/-- A drive changed and the disk's line raised (60_exceptions.md R355), from a state with the drives and lines of `s`. -/
theorem modFdd_setPin_eq {s u : State} (hfdd : u.fdd = s.fdd) (hpins : u.pins = s.pins) (k : Fin 3) (g : Fdd → Fdd) :
    (u.modFdd k g).setPin .disk true = { u with
      fdd := s.fdd.set k (g s.fdd[k])
      pins := { s.pins with disk := true }
      trace := u.trace ++ pinEdge s .disk true } := by
  rw [setPin_eq, State.modFdd, pinEdge, hpins, hfdd]
  rfl

section
variable {s : State} {d : Fin 2}

theorem fddXferDone_of_writing (h : (s.fdd[driveSlot d]).reading = false) :
    fddXferDone d s = (finishWrite d s).setPin .disk true := by
  rw [fddXferDone, if_neg (Bool.eq_false_iff.1 h)]

variable {out : List (Option Byte) × State} (hout : drqOutAll (s.fdd[driveSlot d]).xfSize s = out)
include hout

/-- A write with a byte missing writes nothing (44_floppy.md R275). -/
theorem finishWrite_missing (h : none ∈ out.1) :
    finishWrite d s = out.2.modFdd (driveSlot d) fun f => { f with writing := false, cond := 3 } := by
  rw [finishWrite, drqOutBytes, hout]
  dsimp only
  rw [allBytes_of_missing h]
  exact modFdd_modFdd _ _ _ _

variable {bytes : List Byte} {u : State} (h : out.1 = bytes.map some)
include h

theorem finishWrite_failing (hstore : storeSector d bytes out.2 = (false, u)) :
    finishWrite d s = (dmaError u).modFdd (driveSlot d) fun f => { f with writing := false, cond := 3 } := by
  rw [finishWrite, drqOutBytes, hout]
  dsimp only
  rw [h, allBytes_map_some]
  dsimp only
  rw [hstore, if_neg Bool.false_ne_true]
  exact modFdd_modFdd (dmaError u) (driveSlot d) (fun f => { f with cond := 3 }) _

theorem finishWrite_good (hstore : storeSector d bytes out.2 = (true, u)) :
    finishWrite d s = u.modFdd (driveSlot d) fun f => { f with writing := false } := by
  rw [finishWrite, drqOutBytes, hout]
  dsimp only
  rw [h, allBytes_map_some]
  dsimp only
  rw [hstore, if_pos rfl]

end

/-- A write's completion in full: what its end makes of the drive, in a state with the drives and lines of before. -/
theorem exec_fddXfer_of_finishWrite {s u : State} {d : Fin 2} {e : AgEntry} {g : Fdd → Fdd}
    (he : s.ag[fddXferId d] = some e) (hread : (s.fdd[driveSlot d]).reading = false)
    (hend : finishWrite d (s.cancel (fddXferId d)) = u.modFdd (driveSlot d) g)
    (hfdd : u.fdd = s.fdd) (hpins : u.pins = s.pins) :
    exec (if d = 0 then .cbFdd0Xfer else .cbFdd1Xfer) s = .next { u with
      fdd := s.fdd.set (driveSlot d) (g s.fdd[driveSlot d])
      pins := { s.pins with disk := true }
      trace := u.trace ++ pinEdge s .disk true } := by
  rw [exec_fddXfer d he, fddXferDone_of_writing (s := s.cancel (fddXferId d)) hread, hend, modFdd_setPin_eq hfdd hpins]

/-- Settles O40: each way to finish is a change of the drive in the state that the DMA and the oracle leave, which has the
drives and the lines of the one before. -/
theorem floppyTransferEnds : Obligations.FloppyTransferEnds := by
  intro s d e he f op base finish
  refine ⟨fun hread => ?_, fun hread => ?_⟩
  · have hdone := fddXferDone_of_reading (s := s.cancel (fddXferId d)) hread
    rw [modFdd_setPin_eq (s := s) (by simp) (by simp)] at hdone
    exact (exec_fddXfer d he).trans (congrArg _ hdone)
  · intro got
    have hout : drqOutAll (base.fdd[driveSlot d]).xfSize base = got := rfl
    have hfdd : got.2.fdd = s.fdd := by simp [got, base]
    have hslot : got.2.fdd[driveSlot d] = f := by rw [hfdd]
    have hpins : got.2.pins = s.pins := by simp [got, base]
    have hdisks : got.2.disks = s.disks := by simp [got, base]
    clear_value got
    rw [← hdisks]
    refine ⟨fun hnone => ?_, fun bytes h hgot hdisk => ⟨fun hfail => ?_, fun hgood => ?_⟩⟩
    · exact exec_fddXfer_of_finishWrite he hread (finishWrite_missing hout hnone) hfdd hpins
    · have hstore := storeSector_failing (s := got.2) (by rw [hslot]; exact hdisk) bytes hfail
      rw [hslot] at hstore
      exact exec_fddXfer_of_finishWrite he hread (finishWrite_failing hout hgot hstore) hfdd hpins
    · have hstore := storeSector_good (s := got.2) (by rw [hslot]; exact hdisk) bytes hgood
      rw [hslot] at hstore
      exact exec_fddXfer_of_finishWrite he hread (finishWrite_good hout hgot hstore) hfdd hpins

end Sys2Proof.Machine
end

section
namespace Sys2Proof.Machine

/-! ### Mounting -/

/-- Taking the disk out of an empty slot changes nothing (44_floppy.md R263). -/
theorem unmount_eq_self {f : Fdd} (hdisk : f.disk = none) (hside : f.singleSided = false) (hghost : f.ghost = false) :
    f.unmount = f := by
  cases f
  cases hdisk
  cases hside
  cases hghost
  rfl

/-- Settles O36: each command passes the check of the slot, then that of a transfer, which slot 2 never has. -/
theorem mountCommandsComplete : Obligations.MountCommandsComplete := by
  intro s slot h ss ghost
  refine ⟨fun d hd => ?_, fun hbad => ⟨select_bad hbad, select_bad hbad⟩⟩
  have hmount : exec (.fddMount slot h ss ghost) s = if d.val < 2 ∧ (s.fdd[d]).busy then raise .busy s
      else respondOk (s.modFdd d (Fdd.mount h ss ghost d)) := select_ok d d.isLt hd.symm
  have hunmount : exec (.fddUnmount slot) s = if d.val < 2 ∧ (s.fdd[d]).busy then raise .busy s
      else respondOk (s.modFdd d Fdd.unmount) := select_ok d d.isLt hd.symm
  refine ⟨fun hfree => ?_, fun hdrive hbusy => ?_⟩
  · have hidle : ¬(d.val < 2 ∧ (s.fdd[d]).busy = true) := fun ⟨hdrive, hbusy⟩ => by
      rcases hfree with htwo | hclear
      · omega
      · exact Bool.eq_false_iff.1 (Fdd.busy_eq_false.2 hclear) hbusy
    rw [if_neg hidle] at hmount hunmount
    refine ⟨hmount, hunmount, fun hdisk hside hghost => ?_⟩
    have hempty : (s.fdd[d]).unmount = s.fdd[d] := unmount_eq_self hdisk hside hghost
    have hsame : s.modFdd d Fdd.unmount = s := by
      rw [State.modFdd, hempty]
      simp
    rw [hunmount, hsame]
    rfl
  · have hrefused : d.val < 2 ∧ (s.fdd[d]).busy = true := ⟨hdrive, Fdd.busy_iff.2 hbusy⟩
    rw [hmount, hunmount, if_pos hrefused, if_pos hrefused]
    exact ⟨rfl, rfl⟩

end Sys2Proof.Machine
end

section
namespace Sys2Proof.Machine

theorem not_missingSide {singleSided side : Bool} (h : singleSided = false ∨ side = false) :
    ¬(singleSided = true ∧ side = true) := by
  rintro ⟨rfl, rfl⟩
  rcases h with h | h <;> cases h

/-! ### The checks of a floppy read or write -/

section
variable {s : State} {d : Fin 2} {side : Bool} {body : Handle → Sector → Nat → State → Result}

theorem atSector_empty (h : (s.fdd[driveSlot d]).disk = none) :
    atSector d side s body = raise .noDisk (setCond d 1 s) := by
  unfold atSector
  dsimp only
  rw [h]

variable {h : Handle} (hdisk : (s.fdd[driveSlot d]).disk = some h)
include hdisk

/-- The checks of a drive with a disk, in their order (44_floppy.md R273). -/
theorem atSector_mounted : atSector d side s body =
    if (s.fdd[driveSlot d]).busy then raise .busy s
    else if (s.fdd[driveSlot d]).motor = false then raise .notReady s
    else if (s.fdd[driveSlot d]).singleSided ∧ side then raise .noSector (setCond d 2 s)
    else
      let pos := (s.fdd[driveSlot d]).bytePosition s.par s.now
      let found := sectorAt s.disks.layout h (s.fdd[driveSlot d]).track side pos
      let asked := s.emit (.imgSectorAt h (s.fdd[driveSlot d]).track side pos found)
      found.elim (raise .noSector (setCond d 2 asked)) fun r => body h r.1 r.2 asked := by
  unfold atSector imgSectorAt
  dsimp only
  rw [hdisk]
  dsimp only
  cases sectorAt s.disks.layout h (s.fdd[driveSlot d]).track side ((s.fdd[driveSlot d]).bytePosition s.par s.now) <;> rfl

theorem atSector_busy (hb : (s.fdd[driveSlot d]).busy = true) : atSector d side s body = raise .busy s := by
  rw [atSector_mounted hdisk, if_pos hb]

variable (hb : (s.fdd[driveSlot d]).busy = false)
include hb

theorem atSector_motorOff (hm : (s.fdd[driveSlot d]).motor = false) : atSector d side s body = raise .notReady s := by
  rw [atSector_mounted hdisk, if_neg (Bool.eq_false_iff.1 hb), if_pos hm]

variable (hm : (s.fdd[driveSlot d]).motor = true)
include hm

theorem atSector_missingSide (hss : (s.fdd[driveSlot d]).singleSided = true) (hside : side = true) :
    atSector d side s body = raise .noSector (setCond d 2 s) := by
  rw [atSector_mounted hdisk, if_neg (Bool.eq_false_iff.1 hb), if_neg (ne_false_of_eq_true hm), if_pos ⟨hss, hside⟩]

variable (hside : ¬((s.fdd[driveSlot d]).singleSided = true ∧ side = true))
include hside

theorem atSector_noSector
    (hnone : sectorAt s.disks.layout h (s.fdd[driveSlot d]).track side
      ((s.fdd[driveSlot d]).bytePosition s.par s.now) = none) :
    atSector d side s body = raise .noSector (setCond d 2 (s.emit (.imgSectorAt h (s.fdd[driveSlot d]).track side
      ((s.fdd[driveSlot d]).bytePosition s.par s.now) none))) := by
  rw [atSector_mounted hdisk, if_neg (Bool.eq_false_iff.1 hb), if_neg (ne_false_of_eq_true hm),
    if_neg hside]
  dsimp only
  rw [hnone, Option.elim_none]

theorem atSector_found {n : Sector} {size : Nat}
    (hsome : sectorAt s.disks.layout h (s.fdd[driveSlot d]).track side
      ((s.fdd[driveSlot d]).bytePosition s.par s.now) = some (n, size)) :
    atSector d side s body = body h n size (s.emit (.imgSectorAt h (s.fdd[driveSlot d]).track side
      ((s.fdd[driveSlot d]).bytePosition s.par s.now) (some (n, size)))) := by
  rw [atSector_mounted hdisk, if_neg (Bool.eq_false_iff.1 hb), if_neg (ne_false_of_eq_true hm),
    if_neg hside]
  dsimp only
  rw [hsome, Option.elim_some]

end

/-- FDD_READ and FDD_WRITE begin alike: the check of the drive, the time, the checks of the sector (44_floppy.md R273,
R274). -/
theorem exec_transfer_eq (drive : BitVec 8) (side : Bool) (now : Clock) {op : Instr}
    (hop : op ∈ [Instr.fddRead drive side now, .fddWrite drive side now]) :
    ∃ body : Fin 2 → Handle → Sector → Nat → State → Result, ∀ s, exec op s =
      select 2 drive s fun (d : Fin 2) => timed now s fun s => atSector d side s (body d) := by
  rcases List.mem_pair.1 hop with rfl | rfl <;> exact ⟨_, fun _ => rfl⟩

/-- Settles O38: a transfer command that does not pass its checks does not reach what it is for. -/
theorem floppyTransferRefusals : Obligations.FloppyTransferRefusals := by
  intro s drive side now op hop
  obtain ⟨body, hrun⟩ := exec_transfer_eq drive side now hop
  refine ⟨fun hbad => (hrun s).trans (select_bad hbad), fun d hd htime => ?_⟩
  have hchecks : exec op s = atSector d side { s with now := now } (body d) :=
    (hrun s).trans ((select_ok d d.isLt hd.symm).trans (timed_ok htime))
  refine ⟨fun hnone => hchecks.trans (atSector_empty hnone), fun h hdisk => ⟨fun hb => ?_, fun hb hm => ?_,
    fun hb hm hss hside => ?_, fun hb hm hside hnone => ?_⟩⟩
  · exact hchecks.trans (atSector_busy hdisk hb)
  · exact hchecks.trans (atSector_motorOff hdisk hb hm)
  · exact hchecks.trans (atSector_missingSide hdisk hb hm hss hside)
  · exact hchecks.trans (atSector_noSector hdisk hb hm (not_missingSide hside) hnone)

end Sys2Proof.Machine
end

section
namespace Sys2Proof.Machine

/-! ### A sector fetched -/

/-- Where a disk's sector is read from: the overlay, if the disk has one that holds the sector (44_floppy.md R279). -/
def Fdd.readsOverlay (f : Fdd) (s : State) (h : Handle) (n : Sector) : Bool :=
  f.ghost && (storeFind s.disks.ghost (sectorKey h n)).isSome

/-- The bytes of a sector where it is read from. -/
def Fdd.sectorBytes (f : Fdd) (s : State) (h : Handle) (n : Sector) (size : Nat) : List Byte :=
  fitBytes size ((storeFind (if f.readsOverlay s h n then s.disks.ghost else s.disks.image) (sectorKey h n)).getD [])

/-- The call that fetches a sector. -/
def Fdd.readEvent (f : Fdd) (s : State) (h : Handle) (n : Sector) (r : Option (List Byte)) : Event :=
  if f.readsOverlay s h n then .ghostRead h n r else .imgRead h n r

/-- A fetch answers the bytes of the sector, unless the oracle's call fails (44_floppy.md R273). -/
theorem fetchSector_eq (d : Fin 2) (h : Handle) (n : Sector) (size : Nat) (s : State) {r : Option (List Byte)}
    (hr : (if nextFails s then none else some ((s.fdd[driveSlot d]).sectorBytes s h n size)) = r) :
    fetchSector d h n size s =
      (r, { popFail s with
        trace := s.trace ++
            (if (s.fdd[driveSlot d]).ghost then [.ghostHas h n ((s.fdd[driveSlot d]).readsOverlay s h n)] else []) ++
          [(s.fdd[driveSlot d]).readEvent s h n r] }) := by
  subst hr
  unfold fetchSector Fdd.readEvent Fdd.sectorBytes Fdd.readsOverlay
  cases (s.fdd[driveSlot d]).ghost with
  | false => simp [imgRead, popFail, State.emit]
  | true =>
    cases hhas : (storeFind s.disks.ghost (sectorKey h n)).isSome with
    | false => simp [ghostHas, hhas, imgRead, nextFails, popFail, State.emit]
    | true => simp [ghostHas, hhas, ghostRead, nextFails, popFail, State.emit]

/-! ### A transfer started -/

/-- A transfer that a change of the drive starts: its completion is in the Agenda, and the answer says when (44_floppy.md
R273). -/
theorem respondTransfer_modFdd (d : Fin 2) (n : Sector) (size : Nat) (s : State) {g : Fdd → Fdd}
    (hcpb : (g s.fdd[driveSlot d]).cpb = (s.fdd[driveSlot d]).cpb) :
    respondTransfer d n size (s.modFdd (driveSlot d) g) =
      let done := s.par.tadd s.now (s.par.cycles (size * (s.fdd[driveSlot d]).cpb.toNat))
      .next (State.answer { s with
          ag := s.ag.set (fddXferId d) (some { fireTime := done, param := BitVec.ofNat 32 d.val })
          fdd := s.fdd.set (driveSlot d) (g s.fdd[driveSlot d]) }
        (respWord 0 3 0 n done)) := by
  rw [respondTransfer, scheduleTransfer, modFdd_cpb s (driveSlot d) hcpb]
  rfl

section
variable {s found : State} {drive : BitVec 8} {side : Bool} {now : Clock} {d : Fin 2} {h : Handle} {n : Sector} {size : Nat}
  (hd : d.val = drive.toNat) (htime : 0 ≤ s.par.sdiff now s.now)
  (hfound : ∀ body, atSector d side { s with now := now } body = body h n size found)
include hd htime hfound

theorem exec_fddWrite_found : exec (.fddWrite drive side now) s =
    respondTransfer d n size (found.modFdd (driveSlot d) fun f =>
      { f with writing := true, cond := 0, xfSector := n, xfSize := size }) :=
  (select_ok d d.isLt hd.symm).trans ((timed_ok htime).trans (hfound _))

theorem exec_fddRead_fetched {u : State} {data : List Byte} (hfetch : fetchSector d h n size found = (some data, u)) :
    exec (.fddRead drive side now) s = respondTransfer d n size (u.modFdd (driveSlot d) fun f =>
      { f with reading := true, cond := 0, xfSector := n, xfSize := size, xfBuf := data }) := by
  refine (select_ok d d.isLt hd.symm).trans ((timed_ok htime).trans ((hfound _).trans ?_))
  dsimp only
  rw [hfetch]

theorem exec_fddRead_failed {u : State} (hfetch : fetchSector d h n size found = (none, u)) :
    exec (.fddRead drive side now) s = raise .io (dmaError (setCond d 3 u)) := by
  refine (select_ok d d.isLt hd.symm).trans ((timed_ok htime).trans ((hfound _).trans ?_))
  dsimp only
  rw [hfetch]

end

/-- Settles O39: past its checks a write starts at once, and a read when the oracle's call does not fail. -/
theorem floppyTransferStarts : Obligations.FloppyTransferStarts := by
  intro s drive side now d h n size hd htime f hdisk hb hm hside hsector done entry asked has data call fetched disks
  let found := State.emit { s with now := now } (.imgSectorAt h f.track side (f.bytePosition s.par now) (some (n, size)))
  have hfound : ∀ body, atSector d side { s with now := now } body = body h n size found := fun body =>
    atSector_found (s := { s with now := now }) hdisk hb hm (not_missingSide hside) hsector
  have hfetch := fun r => @fetchSector_eq d h n size found r
  refine ⟨?_, fun hgood => ?_, fun hfail => ?_⟩
  · rw [exec_fddWrite_found hd htime hfound]
    exact respondTransfer_modFdd d n size found rfl
  · have hnext : nextFails found = false := nextFails_eq_false hgood
    rw [exec_fddRead_fetched hd htime hfound (hfetch (some data) (by rw [hnext]; rfl))]
    exact respondTransfer_modFdd d n size _ rfl
  · have hnext : nextFails found = true := (nextFails_iff found).2 hfail
    rw [exec_fddRead_failed hd htime hfound (hfetch none (by rw [hnext]; rfl))]
    rfl

end Sys2Proof.Machine
end

section
namespace Sys2Proof.Machine

/-! ### Conversions -/

/-- The three conversions, whose divisors legal parameters keep nonzero (44_floppy.md R278, 46_cross_family.md R330). -/
theorem convert_of_ok {p : Params} (hp : p.Ok) {fn : BitVec 16} (hfn : fn.toNat ≤ 2) (x : Nat) : convert p fn x =
    some (if fn = 0 then p.hblPerSec * 60 / p.fddRpm
      else if fn = 1 then x * (p.hblPerSec * 60 / p.fddRpm) / p.fddBytesPerTrack
      else x * p.fddBytesPerTrack / (p.hblPerSec * 60 / p.fddRpm)) := by
  obtain ⟨hrotation, hpos⟩ := hblsPerRotation_pos hp
  have htrack : p.fddBytesPerTrack ≠ 0 := Nat.pos_iff_ne_zero.1 hp.track.1
  have hcases : fn = 0 ∨ fn = 1 ∨ fn = 2 := by bv_omega
  rw [← hrotation]
  rcases hcases with rfl | rfl | rfl
  · rfl
  · exact congrArg some (quotient_of_ne htrack)
  · exact congrArg some (quotient_of_ne (Nat.pos_iff_ne_zero.1 hpos))

theorem convert_of_gt {p : Params} {fn : BitVec 16} (hfn : 2 < fn.toNat) (x : Nat) : convert p fn x = none := by
  unfold convert
  split
  · omega
  · omega
  · omega
  · rfl

theorem exec_fddConv (fn : BitVec 16) (x : BitVec 32) (s : State) : exec (.fddConv fn x) s = execFddConv fn x s := rfl

/-! ### The byte position and CPB -/

/-- The position while the last pulse is not ahead of now (44_floppy.md R276). -/
theorem bytePosition_of_ok {p : Params} (hp : p.Ok) {f : Fdd} {now : Clock} (hcpb : f.cpb ≠ 0)
    (hpulse : 0 ≤ p.sdiff now f.tLast) :
    f.bytePosition p now = (p.sdiff now f.tLast).toNat / f.cpb.toNat % p.fddBytesPerTrack := by
  have hcycles : f.cpb.toNat ≠ 0 := fun h => hcpb (BitVec.eq_of_toNat_eq h)
  rw [Fdd.bytePosition, if_pos hpulse, quotient_of_ne hcycles, remainder_of_ne (Nat.pos_iff_ne_zero.1 hp.track.1)]

section
variable {s : State} {now : Clock} (h : 0 ≤ s.par.sdiff now s.now) (d : Fin 2)
include h

theorem exec_regRdFddBytepos : exec (.regRdFddBytepos d now) s = readBytepos d { s with now := now } :=
  timed_ok h

/-- A CPB of any value is within the register's width. -/
theorem exec_regWrFddCpb (v : BitVec 32) : exec (.regWrFddCpb d v now) s = writeCpb d v { s with now := now } :=
  writeRegister_of_lt_width h (r := .fddCpb d) nofun v.isLt

end

/-- Settles O42: with its divisors not 0 each function and the position are the spec's, and CPB is written past its two
checks. -/
theorem conversionsAndPosition : Obligations.ConversionsAndPosition := by
  refine ⟨fun s fn x => ⟨fun hp hfn => ?_, fun hfn => ?_⟩, fun s d now h => ⟨fun hoff => ?_, fun hon hp hcpb hpulse => ?_,
    fun v => ⟨fun hzero => ?_, fun hv hon => ?_, fun hv hoff => ?_⟩⟩⟩
  · rw [exec_fddConv, execFddConv, convert_of_ok hp hfn]
    rfl
  · rw [exec_fddConv, execFddConv, convert_of_gt hfn]
    rfl
  · rw [exec_regRdFddBytepos h, readBytepos]
    exact if_neg (Bool.eq_false_iff.1 hoff)
  · rw [exec_regRdFddBytepos h, readBytepos, ← bytePosition_of_ok hp hcpb hpulse]
    exact if_pos hon
  · rw [exec_regWrFddCpb h, writeCpb, if_pos hzero]
    rfl
  · rw [exec_regWrFddCpb h, writeCpb, if_neg hv]
    exact if_pos hon
  · rw [exec_regWrFddCpb h, writeCpb, if_neg hv]
    exact if_neg (Bool.eq_false_iff.1 hoff)

end Sys2Proof.Machine
end

section
namespace Sys2Proof.Machine

/-! ### Attaching -/

/-- Taking the image from an absent device changes nothing (45_acsi.md R302). -/
theorem detach_eq_self {a : AcsiDev} (hpresent : a.present = false) (himage : a.image = none) (hsectors : a.sectors = 0) :
    { a with present := false, image := none, sectors := 0 } = a := by
  cases a
  cases hpresent
  cases himage
  cases hsectors
  rfl

/-- Settles O45: each command passes the check of the number, then that of the phase. -/
theorem acsiAttachment : Obligations.AcsiAttachment := by
  intro s dev h n
  refine ⟨fun k hk hn => ?_, fun hbad => ⟨select_bad hbad, select_bad hbad⟩⟩
  have hattach : exec (.acsiAttach dev h n) s = if (s.acsi[k]).phase ≠ 7 then raise .busy s
      else respondOk (s.modAcsi k fun a => { a with
        present := true, image := some h, sectors := n, status := s.par.acsiStOk, error := s.par.acsiENone, curLba := 0 }) :=
    select_ok k hn hk.symm
  have hdetach : exec (.acsiDetach dev) s = if (s.acsi[k]).phase ≠ 7 then raise .busy s
      else respondOk (s.modAcsi k fun a => { a with present := false, image := none, sectors := 0 }) :=
    select_ok k hn hk.symm
  refine ⟨fun hidle => ?_, fun hbusy => ?_⟩
  · rw [if_neg (not_not_intro hidle)] at hattach hdetach
    refine ⟨hattach, hdetach, fun hpresent himage hsectors => ?_⟩
    have hsame : (s.modAcsi k fun a => { a with present := false, image := none, sectors := 0 }) = s := by
      rw [State.modAcsi, detach_eq_self hpresent himage hsectors]
      simp
    rw [hdetach, hsame]
    rfl
  · rw [hattach, hdetach, if_pos hbusy, if_pos hbusy]
    exact ⟨rfl, rfl⟩

/-! ### The bus byte -/

theorem exec_regWrAcsibusByte {s : State} {now : Clock} (h : 0 ≤ s.par.sdiff now s.now) (v : Byte) :
    exec (.regWrAcsibusByte v now) s = acsiBusWrite v { s with now := now } := by
  have hrun : exec (.regWrAcsibusByte v now) s = writeRegister .acsibusByte (v.setWidth 32) now s := rfl
  have hv : (v.setWidth 32).toNat < 2 ^ WriteReg.acsibusByte.width s.par := toNat_setWidth_lt v (by decide)
  rw [hrun, writeRegister_of_lt_width h (r := .acsibusByte) nofun hv, writeRule, setWidth_back v (by decide)]

section
variable {s : State} (v : Byte)

/-- A byte for an owner in phases 0 to 5: the next byte of its command (45_acsi.md R303). -/
theorem acsiBusWrite_taken (h : (s.acsi[s.acsiDev]).phase.val < 6) :
    acsiBusWrite v s =
      let a := { s.acsi[s.acsiDev] with
        cmd := (s.acsi[s.acsiDev]).cmd.set (s.acsi[s.acsiDev]).phase.val v h
        phase := (s.acsi[s.acsiDev]).phase + 1 }
      let t := { s with acsi := s.acsi.set s.acsiDev a }
      if a.phase = 6 then .next { t with acsiPending := some s.acsiDev } else respondOk t := by
  have htake : (s.acsi[s.acsiDev]).take v = { s.acsi[s.acsiDev] with
      cmd := (s.acsi[s.acsiDev]).cmd.set (s.acsi[s.acsiDev]).phase.val v h
      phase := (s.acsi[s.acsiDev]).phase + 1 } := dif_pos h
  rw [acsiBusWrite]
  dsimp only
  rw [if_pos (by omega), modAcsi_self, State.modAcsi, htake]

theorem acsiBusWrite_complete (h : (s.acsi[s.acsiDev]).phase = 6) : acsiBusWrite v s = respondOk s := by
  have hnot : ¬(s.acsi[s.acsiDev]).phase.val ≤ 5 := by rw [h]; decide
  rw [acsiBusWrite]
  dsimp only
  rw [if_neg hnot, if_pos h]

/-- A byte on a free bus: the device it names claims the bus, if there is one (45_acsi.md R303). -/
theorem acsiBusWrite_free (h : (s.acsi[s.acsiDev]).phase = 7) : acsiBusWrite v s =
    (namedDevice s.par v).elim (respondOk s) fun k =>
      if (s.acsi[k]).present then respondOk (State.modAcsi { s with acsiDev := k } k (AcsiDev.claim v))
      else respondOk s := by
  have hnot : ¬(s.acsi[s.acsiDev]).phase.val ≤ 5 := by rw [h]; decide
  have hnot6 : (s.acsi[s.acsiDev]).phase ≠ 6 := by rw [h]; decide
  rw [acsiBusWrite]
  dsimp only
  rw [if_neg hnot, if_neg hnot6]
  cases namedDevice s.par v <;> rfl

end

/-- The number in a byte's top three bits (45_acsi.md R303). -/
theorem toNat_top_bits (v : Byte) : (v >>> 5).toNat = (v.extractLsb' 5 3).toNat := by
  have hv := v.isLt
  simp only [BitVec.toNat_ushiftRight, BitVec.extractLsb'_toNat, Nat.shiftRight_eq_div_pow]
  omega

/-- Settles O46: the byte finds the bus in one of its phases. -/
theorem busByteRule : Obligations.BusByteRule := by
  intro s v now h o a
  have hrun := exec_regWrAcsibusByte h v
  refine ⟨fun p hp => ?_, fun hfive => ?_, fun hsix => ?_, fun k hk hfree => ⟨fun hn hpresent => ?_, fun hno => ?_⟩⟩
  · have hlt : a.phase.val < 6 := by omega
    have hnext : a.phase + 1 ≠ 6 := fun e => by
      have hval : (a.phase.val + 1) % 8 = 6 := congrArg Fin.val e
      omega
    rw [hrun, acsiBusWrite_taken (s := { s with now := now }) v hlt]
    dsimp only
    rw [if_neg hnext]
    simp only [← hp]
    rfl
  · have hlt : a.phase.val < 6 := by rw [hfive]; decide
    have hnext : a.phase + 1 = 6 := by rw [hfive]; decide
    have hval : a.phase.val = 5 := congrArg Fin.val hfive
    rw [hrun, acsiBusWrite_taken (s := { s with now := now }) v hlt]
    dsimp only
    rw [if_pos hnext]
    simp only [← hval, ← hnext]
    rfl
  · exact hrun.trans (acsiBusWrite_complete (s := { s with now := now }) v hsix)
  · have hnamed : namedDevice s.par v = some k :=
      index_some.2 ⟨by rw [toNat_top_bits, ← hk]; exact hn, by rw [toNat_top_bits, hk]⟩
    rw [hrun, acsiBusWrite_free (s := { s with now := now }) v hfree, hnamed]
    exact if_pos hpresent
  · rw [hrun, acsiBusWrite_free (s := { s with now := now }) v hfree]
    cases hnamed : namedDevice s.par v with
    | none => rfl
    | some j =>
      obtain ⟨hj, hjk⟩ := index_some.1 hnamed
      rw [toNat_top_bits, ← hk] at hj hjk
      obtain rfl : k = j := Fin.ext hjk
      exact if_neg (Bool.eq_false_iff.1 (hno.resolve_left (by omega)))

end Sys2Proof.Machine
end

section
namespace Sys2Proof.Machine

/-! ### The DMA beside the devices and CFG -/

/-- The machine with another CFG and other devices, at neither of which the DMA looks. -/
def State.beside (s : State) (cfg : Byte) (acsi : Vector AcsiDev 8) : State := { s with cfg := cfg, acsi := acsi }

section
variable (s : State) (cfg : Byte) (acsi : Vector AcsiDev 8)

theorem addToFifo_beside (b : Byte) : addToFifo b (s.beside cfg acsi) = (addToFifo b s).beside cfg acsi := by
  by_cases hi : s.dma.idx = 15
  · exact (if_pos hi).trans (congrArg (State.beside · cfg acsi) (if_pos hi : addToFifo b s = _).symm)
  · exact (if_neg hi).trans (congrArg (State.beside · cfg acsi) (if_neg hi : addToFifo b s = _).symm)

theorem drqIn_beside (b : Byte) : drqIn b (s.beside cfg acsi) = (drqIn b s).beside cfg acsi := by
  rcases drqIn_cases b s with ⟨hd, h⟩ | ⟨hd, hs, h⟩ | ⟨hd, hs, h⟩
  · rw [h]
    exact drqIn_against (s := s.beside cfg acsi) b hd
  · rw [h]
    exact drqIn_exhausted (s := s.beside cfg acsi) b hd hs
  · rw [h, drqIn_accepted (s := s.beside cfg acsi) b hd hs, addToFifo_beside]
    rfl

theorem fillHalf_beside : fillHalf (s.beside cfg acsi) = (fillHalf s).beside cfg acsi := by
  by_cases hi : s.dma.idx = 0
  · exact (if_pos hi).trans (congrArg (State.beside · cfg acsi) (if_pos hi : fillHalf s = _).symm)
  · exact (if_neg hi).trans (congrArg (State.beside · cfg acsi) (if_neg hi : fillHalf s = _).symm)

theorem drqOut_beside : drqOut (s.beside cfg acsi) = ((drqOut s).1, (drqOut s).2.beside cfg acsi) := by
  rcases drqOut_cases s with ⟨hd, h⟩ | ⟨hd, hs, h⟩ | ⟨hd, hs, h⟩
  · rw [h]
    exact drqOut_against (s := s.beside cfg acsi) hd
  · rw [h]
    exact drqOut_exhausted (s := s.beside cfg acsi) hd hs
  · rw [h, drqOut_accepted (s := s.beside cfg acsi) hd hs, fillHalf_beside]
    rfl

end

theorem drqInAll_beside (l : List Byte) (s : State) (cfg : Byte) (acsi : Vector AcsiDev 8) :
    drqInAll l (s.beside cfg acsi) = (drqInAll l s).beside cfg acsi := by
  induction l generalizing s with
  | nil => rfl
  | cons b l ih => rw [drqInAll, drqInAll, drqIn_beside, ih]

theorem drqOutAll_beside (n : Nat) (s : State) (cfg : Byte) (acsi : Vector AcsiDev 8) :
    drqOutAll n (s.beside cfg acsi) = ((drqOutAll n s).1, (drqOutAll n s).2.beside cfg acsi) := by
  induction n generalizing s with
  | zero => rfl
  | succ n ih =>
    rw [drqOutAll, drqOutAll, drqOut_beside]
    dsimp only
    rw [ih]

theorem beside_eq_modAcsi {s u : State} (hcfg : u.cfg = s.cfg) (hacsi : u.acsi = s.acsi) (k : Dev)
    (f : AcsiDev → AcsiDev) : u.beside s.cfg (s.acsi.set k (f s.acsi[k])) = u.modAcsi k f := by
  simp [State.beside, State.modAcsi, hcfg, hacsi]

theorem beside_eq_setCfg {s u : State} (hacsi : u.acsi = s.acsi) (cfg : Byte) :
    u.beside cfg s.acsi = { u with cfg := cfg } := by
  rw [← hacsi]
  rfl

/-- A device changed before bytes are given to the DMA is a device changed after. -/
theorem drqInAll_modAcsi (l : List Byte) (s : State) (k : Dev) (f : AcsiDev → AcsiDev) :
    drqInAll l (s.modAcsi k f) = (drqInAll l s).modAcsi k f :=
  (drqInAll_beside l s s.cfg _).trans (beside_eq_modAcsi (by simp) (by simp) k f)

theorem drqOutAll_modAcsi (n : Nat) (s : State) (k : Dev) (f : AcsiDev → AcsiDev) :
    drqOutAll n (s.modAcsi k f) = ((drqOutAll n s).1, (drqOutAll n s).2.modAcsi k f) :=
  (drqOutAll_beside n s s.cfg _).trans (congrArg (Prod.mk _) (beside_eq_modAcsi (by simp) (by simp) k f))

theorem drqInAll_setCfg (l : List Byte) (s : State) (cfg : Byte) :
    drqInAll l { s with cfg := cfg } = { drqInAll l s with cfg := cfg } :=
  (drqInAll_beside l s cfg s.acsi).trans (beside_eq_setCfg (by simp) cfg)

theorem drqOutAll_setCfg (n : Nat) (s : State) (cfg : Byte) :
    drqOutAll n { s with cfg := cfg } = ((drqOutAll n s).1, { (drqOutAll n s).2 with cfg := cfg }) :=
  (drqOutAll_beside n s cfg s.acsi).trans (congrArg (Prod.mk _) (beside_eq_setCfg (by simp) cfg))

/-! ### The end of a command -/

theorem modAcsi_modAcsi (s : State) (k : Dev) (f g : AcsiDev → AcsiDev) :
    (s.modAcsi k f).modAcsi k g = s.modAcsi k fun a => g (f a) := by
  simp [State.modAcsi]

section
variable {s u : State} (hacsi : u.acsi = s.acsi) (hpins : u.pins = s.pins) (k : Dev) (f : AcsiDev → AcsiDev)
include hacsi hpins

/-- A device changed and `Finish` (45_acsi.md R306), in full, from a state with the devices and lines of `s`. -/
theorem acsiFinish_modAcsi : acsiFinish k (u.modAcsi k f) = { u with
    acsi := s.acsi.set k { f s.acsi[k] with phase := 7 }
    pins := { s.pins with disk := true }
    trace := u.trace ++ pinEdge s .disk true } := by
  rw [acsiFinish, modAcsi_modAcsi, setPin_eq, State.modAcsi, pinEdge, hpins, hacsi]
  rfl

/-- A device changed, and its command finished inside the bus write (45_acsi.md R306). -/
theorem acsiAnswer_modAcsi : acsiAnswer (acsiFinish k (u.modAcsi k f)) = .next (State.answer { u with
      acsi := s.acsi.set k { f s.acsi[k] with phase := 7 }
      acsiPending := none
      pins := { s.pins with disk := true }
      trace := u.trace ++ pinEdge s .disk true }
    (respWord 0 1 0 0 0)) := by
  rw [acsiFinish_modAcsi hacsi hpins]
  rfl

end

/-! ### The commands that finish at once -/

theorem exec_acsiRequestSense (k : Dev) (lba : BitVec 24) (count ctrl : Byte) (s : State) :
    exec (.acsiRequestSense k lba count ctrl) s =
      acsiAnswer (acsiFinish k ((drqInAll (senseBytes s.par s.acsi[k]) s).modAcsi k fun a =>
        { a with status := s.par.acsiStOk, error := s.par.acsiENone })) := by
  have hrun : exec (.acsiRequestSense k lba count ctrl) s = execAcsiRequestSense k lba count ctrl s := rfl
  have hsense : senseBytes s.par (acsiBeginSense k s).acsi[k] = senseBytes s.par s.acsi[k] := by
    rw [acsiBeginSense, modAcsi_self]
    rfl
  rw [hrun, execAcsiRequestSense, acsiBeginSense_par, hsense, acsiBeginSense, drqInAll_modAcsi, modAcsi_modAcsi]
  simp

theorem acsiBegin_eq (k : Dev) (s : State) : acsiBegin k s =
    s.modAcsi k fun a => { a with status := s.par.acsiStOk, error := s.par.acsiENone } := rfl

theorem exec_acsiInquiry (k : Dev) (lba : BitVec 24) (count ctrl : Byte) (s : State) :
    exec (.acsiInquiry k lba count ctrl) s =
      acsiAnswer (acsiFinish k ((drqInAll (inquiryBytes s.par k) s).modAcsi k fun a =>
        { a with status := s.par.acsiStOk, error := s.par.acsiENone })) := by
  have hrun : exec (.acsiInquiry k lba count ctrl) s = execAcsiInquiry k lba count ctrl s := rfl
  rw [hrun, execAcsiInquiry, acsiBegin_eq, drqInAll_modAcsi]

theorem exec_acsiModeSelect (k : Dev) (lba : BitVec 24) (count ctrl : Byte) (s : State) :
    exec (.acsiModeSelect k lba count ctrl) s =
      acsiAnswer (acsiFinish k ((drqOutAll count.toNat s).2.modAcsi k fun a =>
        { a with status := s.par.acsiStOk, error := s.par.acsiENone })) := by
  have hrun : exec (.acsiModeSelect k lba count ctrl) s = execAcsiModeSelect k lba count ctrl s := rfl
  rw [hrun, execAcsiModeSelect, acsiBegin_eq, drqOutAll_modAcsi]

/-- A seek moves the device inside its image, and is an address error outside (45_acsi.md R312). -/
theorem exec_acsiSeek (k : Dev) (lba : BitVec 24) (count ctrl : Byte) (s : State) :
    exec (.acsiSeek k lba count ctrl) s =
      acsiAnswer (acsiFinish k (s.modAcsi k (if (s.acsi[k]).sectors.toNat ≤ lba.toNat then
          fun a => { a with status := s.par.acsiStErr, error := s.par.acsiEAddr }
        else fun a => { a with status := s.par.acsiStOk, error := s.par.acsiENone, curLba := lba }))) := by
  have hrun : exec (.acsiSeek k lba count ctrl) s = execAcsiSeek k lba count ctrl s := rfl
  rw [hrun, execAcsiSeek, acsiBegin_device, acsiBegin_eq, acsiReport, modAcsi_modAcsi, modAcsi_modAcsi]
  by_cases h : (s.acsi[k]).sectors.toNat ≤ lba.toNat
  · rw [if_pos h, if_pos h]
    rfl
  · rw [if_neg h, if_neg h]

/-- Settles O47: each command changes its device, before or after its bytes, and finishes. -/
theorem shortAcsiCommandsFinish : Obligations.ShortAcsiCommandsFinish := by
  intro s k lba count ctrl a finish
  have hin : ∀ l, (drqInAll l s).acsi = s.acsi ∧ (drqInAll l s).pins = s.pins := fun l => by simp
  have hout : ∀ n, (drqOutAll n s).2.acsi = s.acsi ∧ (drqOutAll n s).2.pins = s.pins := fun n => by simp
  have hseek := exec_acsiSeek k lba count ctrl s
  refine ⟨?_, ?_, fun houtside => ?_, fun hinside => ?_, ?_, ?_, fun op => ?_⟩
  · exact acsiAnswer_modAcsi rfl rfl k _
  · rw [exec_acsiRequestSense]
    exact acsiAnswer_modAcsi (hin _).1 (hin _).2 k _
  · rw [if_pos houtside] at hseek
    exact hseek.trans (acsiAnswer_modAcsi rfl rfl k _)
  · rw [if_neg (Nat.not_le.2 hinside)] at hseek
    exact hseek.trans (acsiAnswer_modAcsi rfl rfl k _)
  · rw [exec_acsiInquiry]
    exact acsiAnswer_modAcsi (hin _).1 (hin _).2 k _
  · rw [exec_acsiModeSelect]
    exact acsiAnswer_modAcsi (hout _).1 (hout _).2 k _
  · exact acsiAnswer_modAcsi rfl rfl k _

end Sys2Proof.Machine
end

section
namespace Sys2Proof.Machine

/-! ### The start of a transfer -/

/-- The machine with a device's transfer set up (45_acsi.md R320). -/
def State.transferring (s : State) (k : Dev) (dir : Dir) (lba : BitVec 24) (count : Byte) : State :=
  State.modAcsi { s with ax := { dir := dir, lba := lba.setWidth 32, left := count.toNat } } k fun a =>
    { a with status := s.par.acsiStOk, error := s.par.acsiENone, curLba := lba }

section
variable {s : State} {k : Dev} {lba : BitVec 24} {count : Byte} (dir : Dir)

theorem startTransfer_outside (h : (s.acsi[k]).sectors.toNat < lba.toNat + count.toNat) :
    startTransfer k dir lba count (acsiBegin k s) = acsiFinish k (s.modAcsi k fun a =>
      { a with status := s.par.acsiStErr, error := s.par.acsiEAddr }) := by
  rw [startTransfer, acsiBegin_device, if_pos h, acsiBegin_eq, acsiReport, modAcsi_modAcsi]
  rfl

variable (h : lba.toNat + count.toNat ≤ (s.acsi[k]).sectors.toNat)
include h

/-- A transfer inside the image finishes, waits for its first block, or moves its blocks (45_acsi.md R320). -/
theorem startTransfer_inside : startTransfer k dir lba count (acsiBegin k s) =
    let u := s.transferring k dir lba count
    if count = 0 then acsiFinish k u
    else if s.cfg.getLsbD 0 then u.schedule acsiBlockId s.par.acsiBlockCycles (BitVec.ofNat 32 k.val)
    else endTransfer k (moveBlocks k count.toNat u) := by
  have hset : State.modAcsi { acsiBegin k s with ax := { dir := dir, lba := lba.setWidth 32, left := count.toNat } } k
      (fun a => { a with curLba := lba }) = s.transferring k dir lba count := by
    simp [State.transferring, acsiBegin_eq, State.modAcsi]
  rw [startTransfer, acsiBegin_device, if_neg (Nat.not_lt.2 h), hset]
  rfl

/-- In instant timing a transfer inside the image moves its blocks at once, none of them for a count of 0
(45_acsi.md R318, R320). -/
theorem startTransfer_instant (hcfg : s.cfg.getLsbD 0 = false) : startTransfer k dir lba count (acsiBegin k s) =
    endTransfer k (moveBlocks k count.toNat (s.transferring k dir lba count)) := by
  have hinside := startTransfer_inside dir h
  dsimp only at hinside
  by_cases hzero : count = 0
  · rw [hinside, if_pos hzero]
    subst hzero
    rfl
  · rw [hinside, if_neg hzero, if_neg (Bool.eq_false_iff.1 hcfg)]

end

/-- A read and a write begin alike (45_acsi.md R310, R311). -/
theorem exec_acsiTransfer {k : Dev} {lba : BitVec 24} {count ctrl : Byte} {op : Instr × Dir}
    (hop : op ∈ [(Instr.acsiRead k lba count ctrl, Dir.read), (.acsiWrite k lba count ctrl, .write)]) (s : State) :
    exec op.1 s = acsiAnswer (startTransfer k op.2 lba count (acsiBegin k s)) := by
  rcases List.mem_pair.1 hop with rfl | rfl <;> rfl

/-- Settles O49: the range is outside the image, or the transfer inside it has nothing to move or waits for its first
block. -/
theorem acsiTransfersStart : Obligations.AcsiTransfersStart := by
  intro s k lba count ctrl op hop a finish
  have hrun := exec_acsiTransfer hop s
  refine ⟨fun hout => ?_, fun hin hzero => ?_, fun hin hcount hcfg => ?_⟩
  · rw [hrun, startTransfer_outside op.2 hout]
    exact acsiAnswer_modAcsi rfl rfl k _
  · rw [hrun, startTransfer_inside op.2 hin]
    subst hzero
    exact acsiAnswer_modAcsi (u := { s with ax := { dir := op.2, lba := lba.setWidth 32, left := 0 } }) rfl rfl k _
  · rw [hrun, startTransfer_inside op.2 hin]
    dsimp only
    rw [if_neg hcount, if_pos hcfg]
    rfl

/-! ### One block moved -/

section
variable {s : State} {k : Dev} {h : Handle} (hk : (s.acsi[k]).image = some h)
include hk

theorem moveBlock_read_good (hdir : s.ax.dir = .read) (hgood : s.disks.ioFail.head? ≠ some true) {data : List Byte}
    (hdata : fitBytes s.par.acsiBlockBytes ((storeFind s.disks.image (sectorKey h s.ax.lba)).getD []) = data) :
    moveBlock k s = blockMoved k (drqInAll data ((popFail s).emit (.imgRead h s.ax.lba (some data)))) := by
  have hread : readBlock k s = (some data, (popFail s).emit (.imgRead h s.ax.lba (some data))) := by
    rw [readBlock, hk]
    dsimp only
    rw [imgRead, nextFails_eq_false hgood, hdata]
    rfl
  rw [moveBlock, hdir]
  dsimp only
  rw [hread, moveIn]

theorem moveBlock_read_failing (hdir : s.ax.dir = .read) (hfail : s.disks.ioFail.head? = some true) :
    moveBlock k s = blockFailed k s.par.acsiERead (dmaError ((popFail s).emit (.imgRead h s.ax.lba none))) := by
  have hread : readBlock k s = (none, (popFail s).emit (.imgRead h s.ax.lba none)) := by
    rw [readBlock, hk]
    dsimp only
    rw [imgRead, (nextFails_iff s).2 hfail]
    rfl
  rw [moveBlock, hdir]
  dsimp only
  rw [hread, moveIn]
  rfl

end

section
variable {s : State} {k : Dev} (hdir : s.ax.dir = .write)
  {got : List (Option Byte) × State} (hgot : drqOutAll s.par.acsiBlockBytes s = got)
include hdir hgot

/-- A write with a byte missing writes nothing (45_acsi.md R316). -/
theorem moveBlock_write_missing (hnone : none ∈ got.1) : moveBlock k s = blockFailed k s.par.acsiEWrite got.2 := by
  have hpar : got.2.par = s.par := by simp [← hgot]
  rw [moveBlock, hdir]
  dsimp only
  rw [drqOutBytes, hgot, moveOut]
  dsimp only
  rw [allBytes_of_missing hnone, ← hpar]

variable {bytes : List Byte} (hbytes : got.1 = bytes.map some)
include hbytes

/-- With every byte there, the block is given to the oracle (45_acsi.md R316). -/
theorem moveBlock_write_bytes : moveBlock k s =
    let w := writeBlock k s.ax.lba bytes got.2
    if w.1 then blockMoved k w.2 else blockFailed k s.par.acsiEWrite (dmaError w.2) := by
  have hpar : got.2.par = s.par := by simp [← hgot]
  have hax : got.2.ax = s.ax := by simp [← hgot]
  rw [moveBlock, hdir]
  dsimp only
  rw [drqOutBytes, hgot, moveOut]
  dsimp only
  rw [hbytes, allBytes_map_some]
  dsimp only
  rw [(writeBlock_leaves k got.2.ax.lba bytes got.2).1, hpar, hax]

variable {h : Handle} (hk : (s.acsi[k]).image = some h)
include hk

theorem moveBlock_write_failing (hfail : s.disks.ioFail.head? = some true) : moveBlock k s =
    blockFailed k s.par.acsiEWrite (dmaError ((popFail got.2).emit (.imgWrite h s.ax.lba bytes false))) := by
  have hacsi : got.2.acsi = s.acsi := by simp [← hgot]
  have hdisks : got.2.disks = s.disks := by simp [← hgot]
  rw [moveBlock_write_bytes hdir hgot hbytes,
    writeBlock_failing (by rw [hacsi]; exact hk) s.ax.lba bytes (by rw [hdisks]; exact hfail)]
  rfl

theorem moveBlock_write_good (hgood : s.disks.ioFail.head? ≠ some true) : moveBlock k s =
    blockMoved k ((putImage h s.ax.lba bytes (popFail got.2)).emit (.imgWrite h s.ax.lba bytes true)) := by
  have hacsi : got.2.acsi = s.acsi := by simp [← hgot]
  have hdisks : got.2.disks = s.disks := by simp [← hgot]
  rw [moveBlock_write_bytes hdir hgot hbytes,
    writeBlock_good (by rw [hacsi]; exact hk) s.ax.lba bytes (by rw [hdisks]; exact hgood)]
  rfl

end

end Sys2Proof.Machine
end

section
namespace Sys2Proof.Machine

/-! ### The block callback -/

theorem exec_cbAcsiBlock {s : State} {k : Dev} {e : AgEntry} (he : s.ag[acsiBlockId] = some e)
    (hparam : e.param = BitVec.ofNat 32 k.val) :
    exec .cbAcsiBlock s = .next (acsiBlockDone k e.fireTime (s.cancel acsiBlockId)) := by
  have hrun : exec .cbAcsiBlock s = execCbAcsiBlock s := rfl
  rw [hrun, execCbAcsiBlock, dispatchEntry, he]
  dsimp only
  rw [hparam, blockDevice_ofNat]

/-- A state on the way through the block callback: the callback's entry is taken, and of the parts that the callback writes
in the end none has changed. -/
structure BlockFired (s u : State) : Prop where
  par : u.par = s.par
  acsi : u.acsi = s.acsi
  pins : u.pins = s.pins
  ax : u.ax = s.ax
  ag : u.ag = s.ag.set acsiBlockId none

/-- A device changed and the transfer's end (45_acsi.md R319, R320), from a state with the devices and lines of `s`. -/
theorem endTransfer_modAcsi {s u : State} (hacsi : u.acsi = s.acsi) (hpins : u.pins = s.pins) (k : Dev)
    (f : AcsiDev → AcsiDev) : endTransfer k (u.modAcsi k f) = { u with
      acsi := s.acsi.set k { f s.acsi[k] with phase := 7 }
      ax := { u.ax with left := 0 }
      pins := { s.pins with disk := true }
      trace := u.trace ++ pinEdge s .disk true } :=
  acsiFinish_modAcsi (u := { u with ax := { u.ax with left := 0 } }) hacsi hpins k f

section
variable {s u : State} {k : Dev} (hu : BlockFired s u) (ft : Clock)
include hu

/-- A block that fails ends the transfer (45_acsi.md R316, R319). -/
theorem acsiBlockDone_failed {error : Byte} (hmove : moveBlock k (s.cancel acsiBlockId) = blockFailed k error u) :
    acsiBlockDone k ft (s.cancel acsiBlockId) = { u with
      acsi := s.acsi.set k { s.acsi[k] with status := s.par.acsiStErr, error := error, phase := 7 }
      ax := { s.ax with left := 0 }
      pins := { s.pins with disk := true }
      trace := u.trace ++ pinEdge s .disk true } := by
  have hend := endTransfer_modAcsi hu.acsi hu.pins k fun a => { a with status := u.par.acsiStErr, error := error }
  rw [acsiBlockDone, hmove, ← hu.par, ← hu.ax]
  exact (if_neg fun hboth => Bool.false_ne_true hboth.1).trans hend

/-- A block that moves ends the transfer if it was the last, and is else followed by the next, one block time after its
own fire time (45_acsi.md R316, R319). -/
theorem acsiBlockDone_moved (hmove : moveBlock k (s.cancel acsiBlockId) = blockMoved k u) :
    acsiBlockDone k ft (s.cancel acsiBlockId) =
      if s.ax.left ≤ 1 then { u with
        acsi := s.acsi.set k { s.acsi[k] with curLba := curLbaOf (s.ax.lba + 1), phase := 7 }
        ax := { s.ax with lba := s.ax.lba + 1, left := 0 }
        pins := { s.pins with disk := true }
        trace := u.trace ++ pinEdge s .disk true }
      else { u with
        ag := s.ag.set acsiBlockId (some
          { fireTime := s.par.tadd ft s.par.acsiBlockCycles, param := BitVec.ofNat 32 k.val })
        acsi := s.acsi.set k { s.acsi[k] with curLba := curLbaOf (s.ax.lba + 1) }
        ax := { s.ax with lba := s.ax.lba + 1, left := s.ax.left - 1 } } := by
  have hpar : (s.cancel acsiBlockId).par = u.par := hu.par.symm
  rw [acsiBlockDone, hmove, hpar, ← hu.par, ← hu.ax]
  by_cases hlast : u.ax.left ≤ 1
  · have hend := endTransfer_modAcsi
      (u := { u with ax := { u.ax with lba := u.ax.lba + 1, left := u.ax.left - 1 } }) hu.acsi hu.pins k
      fun a => { a with curLba := curLbaOf (u.ax.lba + 1) }
    rw [if_pos hlast]
    exact (if_neg fun hboth => Nat.sub_ne_zero_iff_lt.1 (Nat.pos_iff_ne_zero.1 hboth.2) |>.not_ge hlast).trans hend
  · have harm : u.par.tadd u.now (u.par.tadd ft u.par.acsiBlockCycles - u.now) = u.par.tadd ft u.par.acsiBlockCycles :=
      tadd_cycles_sub_now _ _ _
    rw [if_neg hlast, ← hu.acsi]
    refine (if_pos ⟨rfl, Nat.sub_pos_of_lt (Nat.not_le.1 hlast)⟩).trans ?_
    simp only [blockMoved, State.schedule, State.modAcsi, hu.ag, Vector.set_set]
    rw [harm]

end

/-- Settles O52: the block moves or fails, for an error of the oracle or a byte missing. -/
theorem blockCallback : Obligations.BlockCallback := by
  intro s k e h he hparam himage a base popped data got fails moved
  have hrun := exec_cbAcsiBlock he hparam
  have hgoes : ∀ u, BlockFired s u → moveBlock k (s.cancel acsiBlockId) = blockMoved k u → exec .cbAcsiBlock s = moved u :=
    fun u hu hmove => by
      rw [hrun, acsiBlockDone_moved hu e.fireTime hmove, ← hparam]
      split
      · rename_i hlast
        exact (if_pos hlast).symm
      · rename_i hlast
        exact (if_neg hlast).symm
  have hstops : ∀ u error, BlockFired s u → moveBlock k (s.cancel acsiBlockId) = blockFailed k error u →
      exec .cbAcsiBlock s = fails u error := fun u error hu hmove => by
    rw [hrun, acsiBlockDone_failed hu e.fireTime hmove]
  refine ⟨fun hdir hgood => ?_, fun hdir hfail => ?_, fun hdir hnone => ?_, fun bytes hdir hbytes => ?_⟩
  · exact hgoes _ (by constructor <;> simp [base]) (moveBlock_read_good (s := base) himage hdir hgood rfl)
  · exact hstops _ _ (by constructor <;> simp [base]) (moveBlock_read_failing (s := base) himage hdir hfail)
  · have hgot : drqOutAll base.par.acsiBlockBytes base = got := rfl
    exact hstops _ _ (by constructor <;> simp [base, got]) (moveBlock_write_missing (s := base) hdir hgot hnone)
  · have hgot : drqOutAll base.par.acsiBlockBytes base = got := rfl
    have hfired : BlockFired s got.2 := by constructor <;> simp [base, got]
    have hdisks : got.2.disks = s.disks := by simp [base, got]
    have hpopped : popped = (popFail got.2).disks := by
      rw [popFail, hdisks]
    clear_value got
    obtain ⟨hpar, hacsi, hpins, hax, hag⟩ := hfired
    refine ⟨fun hfail => ?_, fun hgood => ?_⟩
    · have hmove := moveBlock_write_failing (s := base) hdir hgot hbytes himage hfail
      rw [hpopped, hstops _ _ (by constructor <;> simp [hpar, hacsi, hpins, hax, hag]) hmove]
      rfl
    · have hmove := moveBlock_write_good (s := base) hdir hgot hbytes himage hgood
      rw [hpopped, ← hdisks, hgoes _ (by constructor <;> simp [hpar, hacsi, hpins, hax, hag]) hmove]
      rfl

end Sys2Proof.Machine
end

section
namespace Sys2Proof.Machine

/-! ### CFG and the Agenda under an ACSI command -/

/-- CFG is as before, and so is the Agenda; in advanced timing the block's slot may differ (45_acsi.md R317, R318). -/
def KeepsMode (s u : State) : Prop :=
  u.cfg = s.cfg ∧ (u.ag = s.ag ∨ s.cfg.getLsbD 0 = true ∧ ∃ x, u.ag = s.ag.set acsiBlockId x)

theorem startTransfer_keepsMode (k : Dev) (dir : Dir) (lba : BitVec 24) (count : Byte) (s : State) :
    KeepsMode s (startTransfer k dir lba count s) := by
  refine ⟨by simp, ?_⟩
  unfold startTransfer
  dsimp only
  split
  · exact .inl (by simp)
  · split
    · exact .inl (by simp)
    · split
      · exact .inr ⟨‹_›, _, rfl⟩
      · exact .inl (by simp)

/-- A command answers the bus write, and keeps the mode if what it has done does. -/
theorem leads_acsiAnswer_keepsMode {s u : State} (h : KeepsMode s u) : Leads (KeepsMode s) (acsiAnswer u) := by
  refine .next ?_
  simpa [KeepsMode] using h

theorem leads_acsi_keepsMode (s : State) (k : Dev) (op : BitVec 5) (lba : BitVec 24) (count ctrl : Byte) :
    ∀ i ∈ [Instr.acsiReady k lba count ctrl, .acsiRequestSense k lba count ctrl, .acsiFormat k lba count ctrl,
      .acsiRead k lba count ctrl, .acsiWrite k lba count ctrl, .acsiSeek k lba count ctrl,
      .acsiInquiry k lba count ctrl, .acsiModeSelect k lba count ctrl, .acsiInvalid k op lba count ctrl],
      Leads (KeepsMode s) (exec i s) := by
  have finished : ∀ {u : State}, u.cfg = s.cfg → u.ag = s.ag → Leads (KeepsMode s) (acsiAnswer (acsiFinish k u)) :=
    fun hcfg hag => leads_acsiAnswer_keepsMode ⟨by simpa using hcfg, .inl (by simpa using hag)⟩
  have started : ∀ dir, Leads (KeepsMode s) (acsiAnswer (startTransfer k dir lba count (acsiBegin k s))) := fun dir =>
    leads_acsiAnswer_keepsMode (startTransfer_keepsMode k dir lba count (acsiBegin k s))
  simp only [List.forall_mem_cons, List.not_mem_nil, false_implies, implies_true, and_true]
  refine ⟨finished rfl rfl, ?_, ?_, started .read, started .write, ?_, ?_, ?_, finished rfl rfl⟩
  · rw [exec_acsiRequestSense]
    exact finished (by simp) (by simp)
  · rw [exec_acsiFormat]
    exact finished (by simp) (by simp)
  · rw [exec_acsiSeek]
    exact finished rfl rfl
  · rw [exec_acsiInquiry]
    exact finished (by simp) (by simp)
  · rw [exec_acsiModeSelect]
    exact finished (by simp) (by simp)

/-! ### The block callback and CFG -/

section
variable (s : State) (k : Dev) (cfg : Byte)

theorem readBlock_setCfg : readBlock k { s with cfg := cfg } = ((readBlock k s).1, { (readBlock k s).2 with cfg := cfg }) := by
  unfold readBlock
  dsimp only
  split <;> rfl

theorem writeBlock_setCfg (n : Sector) (bytes : List Byte) : writeBlock k n bytes { s with cfg := cfg } =
    ((writeBlock k n bytes s).1, { (writeBlock k n bytes s).2 with cfg := cfg }) := by
  unfold writeBlock
  dsimp only
  split
  · rfl
  · have hnext : nextFails { s with cfg := cfg } = nextFails s := rfl
    rw [imgWrite, imgWrite, hnext]
    cases nextFails s <;> rfl

theorem moveIn_setCfg (r : Option (List Byte) × State) :
    moveIn k (r.1, { r.2 with cfg := cfg }) = ((moveIn k r).1, { (moveIn k r).2 with cfg := cfg }) := by
  obtain ⟨data, u⟩ := r
  cases data with
  | none => rfl
  | some data =>
    have hgiven := drqInAll_setCfg data u cfg
    exact congrArg (blockMoved k) hgiven

theorem moveOut_setCfg (r : Option (List Byte) × State) :
    moveOut k (r.1, { r.2 with cfg := cfg }) = ((moveOut k r).1, { (moveOut k r).2 with cfg := cfg }) := by
  obtain ⟨bytes, u⟩ := r
  cases bytes with
  | none => rfl
  | some bytes =>
    simp only [moveOut]
    rw [writeBlock_setCfg]
    dsimp only
    split <;> rfl

/-- A block moves alike under every CFG (45_acsi.md R317). -/
theorem moveBlock_setCfg :
    moveBlock k { s with cfg := cfg } = ((moveBlock k s).1, { (moveBlock k s).2 with cfg := cfg }) := by
  unfold moveBlock
  dsimp only
  split
  · rw [readBlock_setCfg, moveIn_setCfg]
  · rw [drqOutBytes, drqOutAll_setCfg]
    exact moveOut_setCfg k cfg (drqOutBytes s.par.acsiBlockBytes s)

theorem endTransfer_setCfg : endTransfer k { s with cfg := cfg } = { endTransfer k s with cfg := cfg } := by
  rw [endTransfer, endTransfer, acsiFinish, acsiFinish, setPin_eq, setPin_eq]
  rfl

theorem acsiBlockDone_setCfg (ft : Clock) :
    acsiBlockDone k ft { s with cfg := cfg } = { acsiBlockDone k ft s with cfg := cfg } := by
  rw [acsiBlockDone, acsiBlockDone, moveBlock_setCfg]
  dsimp only
  split
  · rfl
  · exact endTransfer_setCfg _ k cfg

end

/-- Settles O53: of the commands only a transfer in advanced timing writes the Agenda, and there the block's slot; the
callback's operations commute with a change of CFG. -/
theorem acsiKeepsTimingMode : Obligations.AcsiKeepsTimingMode := by
  refine ⟨fun s t k op lba count ctrl i hi hrun => ?_, fun s t cfg hrun => ?_⟩
  · obtain ⟨hcfg, hag⟩ := leads_acsi_keepsMode s k op lba count ctrl i hi t hrun
    refine ⟨hcfg, fun hinstant => ?_, fun c hc => ?_⟩
    · exact hag.resolve_right fun hboth => Bool.false_ne_true (hinstant.symm.trans hboth.1)
    · rcases hag with hsame | ⟨_, x, hset⟩
      · rw [hsame]
      · rw [hset, ag_set_other _ _ (Ne.symm hc)]
  · have hexec : ∀ u : State, exec .cbAcsiBlock u = execCbAcsiBlock u := fun _ => rfl
    rw [hexec, execCbAcsiBlock] at hrun ⊢
    rcases dispatchEntry_next hrun with ⟨hnone, rfl⟩ | ⟨e, he, hdone⟩
    · rw [dispatchEntry]
      dsimp only
      rw [hnone]
    · cases hdone
      rw [dispatchEntry]
      dsimp only
      rw [he]
      exact congrArg Host.Outcome.next (acsiBlockDone_setCfg (s.cancel acsiBlockId) _ cfg e.fireTime)

end Sys2Proof.Machine
end

section
namespace Sys2Proof.Machine

/-! ### Sectors counted by the DMA -/

theorem addrAt_zero {p : Params} {a : Addr} (h : a.toNat < 2 ^ p.dmaAddrW) : p.addrAt a 0 = a := by
  rw [Params.addrAt, Nat.add_zero, Nat.mod_eq_of_lt h, BitVec.ofNat_toNat, BitVec.setWidth_eq]

/-- The controller with `n` sectors of 512 bytes moved (43_dma.md R239). -/
def Dma.afterSectors (p : Params) (d : Dma) (n : Nat) (fifo : Vector (Vector Byte 16) 2) (drq : Bool) : Dma :=
  { d with fifo := fifo, addr := p.addrAt d.addr (512 * n), drq := drq, sct := d.sct - BitVec.ofNat 32 n }

theorem Dma.afterSectors_zero {p : Params} {d : Dma} (h : d.addr.toNat < 2 ^ p.dmaAddrW) :
    d.afterSectors p 0 d.fifo d.drq = d := by
  simp [Dma.afterSectors, addrAt_zero h]

theorem Dma.afterSectors_succ (p : Params) (d : Dma) (n : Nat) (fifo fifo' : Vector (Vector Byte 16) 2) (drq drq' : Bool) :
    (d.afterSectors p n fifo drq).afterSectors p 1 fifo' drq' = d.afterSectors p (n + 1) fifo' drq' := by
  have hsct : d.sct - BitVec.ofNat 32 n - BitVec.ofNat 32 1 = d.sct - BitVec.ofNat 32 (n + 1) := by
    rw [BitVec.ofNat_add]
    bv_omega
  simp only [Dma.afterSectors, addrAt_addrAt, hsct, Nat.mul_add]

theorem sub_ofNat_ne_zero {x : BitVec 32} {n : Nat} (h : n < x.toNat) : x - BitVec.ofNat 32 n ≠ 0 := by
  have hx := x.isLt
  bv_omega

theorem sub_ofNat_toNat (x : BitVec 32) : x - BitVec.ofNat 32 x.toNat = 0 := by
  rw [BitVec.ofNat_toNat, BitVec.setWidth_eq, BitVec.sub_self]
  rfl

/-- The DMA is set up to move whole sectors of 512 bytes in a direction (43_dma.md R231, R239). -/
structure Dma.Aligned (p : Params) (write : Bool) (d : Dma) : Prop where
  mcr : d.mcr.getLsbD 8 = write
  idx : d.idx = 0
  bct : d.bct = 0
  sector : p.dmaSectorBytes = 512

/-! #### Given to the DMA -/

section
variable {s : State} (hs : Dma.Aligned s.par false s.dma) {l : List Byte}
include hs

/-- A sector given to the DMA with the counter above 0 goes to memory. -/
theorem drqInAll_counted (hsct : s.dma.sct ≠ 0) (hl : l.length = 512) :
    ∃ fifo, (drqInAll l s).dma = s.dma.afterSectors s.par 1 fifo false ∧
      (drqInAll l s).mem = Memory.writeBytes s.par s.mem s.dma.addr l := by
  obtain ⟨fifo, hsector⟩ := drqInAll_sector hs.mcr hsct hs.idx hs.sector hs.bct hl
  rw [hsector]
  exact ⟨fifo, rfl, rfl⟩

omit hs in
/-- Bytes given to the DMA with the counter at 0 are refused (43_dma.md R241). -/
theorem drqInAll_refused (hmcr : s.dma.mcr.getLsbD 8 = false) (hsct : s.dma.sct = 0) :
    ∃ drq, drqInAll l s = { s with dma := { s.dma with drq := drq } } := by
  induction l generalizing s with
  | nil => exact ⟨s.dma.drq, rfl⟩
  | cons b l ih =>
    rw [drqInAll, drqIn_exhausted b hmcr hsct]
    exact ih (s := { s with dma := { s.dma with drq := true } }) hmcr hsct

end

/-! #### Taken from the DMA -/

theorem drqOutAll_add (m n : Nat) (s : State) : drqOutAll (m + n) s =
    ((drqOutAll m s).1 ++ (drqOutAll n (drqOutAll m s).2).1, (drqOutAll n (drqOutAll m s).2).2) := by
  induction m generalizing s with
  | zero => simp [drqOutAll]
  | succ m ih => rw [Nat.add_right_comm, drqOutAll, ih, drqOutAll, List.cons_append]

/-- The bytes of memory from an address on. -/
def Memory.bytesAt (p : Params) (m : List Host.Cell) (a : Addr) (n : Nat) : List Byte :=
  (List.range n).map fun k => Memory.read m (p.addrAt a k)

theorem Memory.bytesAt_add (p : Params) (mem : List Host.Cell) (a : Addr) (m n : Nat) :
    Memory.bytesAt p mem a m ++ Memory.bytesAt p mem (p.addrAt a m) n = Memory.bytesAt p mem a (m + n) := by
  simp only [Memory.bytesAt, List.range_add, List.map_append, List.map_map, addrAt_addrAt]
  rfl

/-- The state with bytes taken from memory, and the controller then at `d`. -/
def State.drawn (s : State) (trace : List Event) (d : Dma) : State := { s with trace := trace, dma := d }

@[simp] theorem State.drawn_dma (s : State) (trace : List Event) (d : Dma) : (s.drawn trace d).dma = d := rfl

@[simp] theorem State.drawn_leaves (s : State) (trace : List Event) (d : Dma) :
    (s.drawn trace d).par = s.par ∧ (s.drawn trace d).acsi = s.acsi ∧ (s.drawn trace d).ax = s.ax ∧
    (s.drawn trace d).mem = s.mem ∧ (s.drawn trace d).disks = s.disks := ⟨rfl, rfl, rfl, rfl, rfl⟩

section
variable {s : State} (hs : Dma.Aligned s.par true s.dma) (hsct : s.dma.sct ≠ 0)
include hs hsct

/-- One more half inside a sector is taken behind the ones before it. -/
theorem drqOutAll_next_half (n : Nat) (fifo : Vector (Vector Byte 16) 2) (trace : List Event) : ∃ fifo' trace',
    drqOutAll 16 (s.drawn trace (s.dma.afterHalves s.par n fifo)) =
      ((Memory.bytesAt s.par s.mem (s.par.addrAt s.dma.addr (16 * n)) 16).map some,
        s.drawn trace' (Dma.halfDone s.par { s.dma.afterHalves s.par n fifo with fifo := fifo' })) := by
  have hhalf := drqOutAll_half (s := s.drawn trace (s.dma.afterHalves s.par n fifo)) hs.mcr hsct hs.idx
  rw [Memory.bytesAt, List.map_map]
  exact ⟨_, _, hhalf⟩

/-- The halves of a sector but its last are taken, one after another. -/
theorem drqOutAll_halves {n : Nat} (hn : n < 31) : ∃ fifo trace, drqOutAll (16 * (n + 1)) s =
    ((Memory.bytesAt s.par s.mem s.dma.addr (16 * (n + 1))).map some,
      s.drawn trace (s.dma.afterHalves s.par (n + 1) fifo)) := by
  induction n with
  | zero =>
    have hhalf := drqOutAll_half hs.mcr hsct hs.idx
    rw [Dma.halfDone_first hs.sector hs.bct] at hhalf
    rw [Memory.bytesAt, List.map_map]
    exact ⟨_, _, hhalf⟩
  | succ n ih =>
    obtain ⟨fifo, trace, hbefore⟩ := ih (by omega)
    obtain ⟨fifo', trace', hlast⟩ := drqOutAll_next_half hs hsct (n + 1) fifo trace
    refine ⟨fifo', trace', ?_⟩
    rw [Nat.mul_succ 16 (n + 1), drqOutAll_add, hbefore, hlast, ← List.map_append, Memory.bytesAt_add,
      Dma.halfDone_inner hs.sector _ hn]

/-- A sector of 512 bytes taken from the DMA (43_dma.md R239, R240). -/
theorem drqOutAll_sector : ∃ fifo trace, drqOutAll 512 s =
    ((Memory.bytesAt s.par s.mem s.dma.addr 512).map some,
      s.drawn trace (s.dma.afterSectors s.par 1 fifo false)) := by
  obtain ⟨fifo, trace, hbefore⟩ := drqOutAll_halves hs hsct (n := 30) (by decide)
  obtain ⟨fifo', trace', hlast⟩ := drqOutAll_next_half hs hsct 31 fifo trace
  refine ⟨fifo', trace', ?_⟩
  rw [show (512 : Nat) = 16 * (30 + 1) + 16 from rfl, drqOutAll_add, hbefore, hlast, ← List.map_append,
    Memory.bytesAt_add, Dma.halfDone_sector hs.sector hs.bct]
  rfl

end

/-- Bytes asked of the DMA with the counter at 0 are not given (43_dma.md R241). -/
theorem drqOutAll_refused {s : State} (hmcr : s.dma.mcr.getLsbD 8 = true) (hsct : s.dma.sct = 0) (n : Nat) :
    ∃ drq, drqOutAll n s = (List.replicate n none, { s with dma := { s.dma with drq := drq } }) := by
  induction n generalizing s with
  | zero => exact ⟨s.dma.drq, rfl⟩
  | succ n ih =>
    obtain ⟨drq, hrest⟩ := ih (s := { s with dma := { s.dma with drq := true } }) hmcr hsct
    refine ⟨drq, ?_⟩
    rw [drqOutAll, drqOut_exhausted hmcr hsct]
    dsimp only
    rw [hrest]
    rfl

end Sys2Proof.Machine
end

section
namespace Sys2Proof.Machine

/-! ### Blocks moved one after another -/

/-- While its blocks move, a transfer goes on with the blocks that are left (45_acsi.md R320). -/
theorem moveBlocks_of_steps {k : Dev} {P : Nat → State → Prop} {u : State} (hstart : P 0 u) {n : Nat}
    (hstep : ∀ j < n, ∀ t, P j t → (moveBlock k t).1 = true ∧ P (j + 1) (moveBlock k t).2) :
    ∃ t, P n t ∧ ∀ left, moveBlocks k (n + left) u = moveBlocks k left t := by
  induction n with
  | zero => exact ⟨u, hstart, fun left => by rw [Nat.zero_add]⟩
  | succ n ih =>
    obtain ⟨t, ht, hrest⟩ := ih fun j hj => hstep j (by omega)
    obtain ⟨hgood, hnext⟩ := hstep n (by omega) t ht
    refine ⟨_, hnext, fun left => ?_⟩
    rw [Nat.add_assoc, Nat.add_comm 1, hrest, moveBlocks]
    exact if_pos hgood

/-- A block that fails ends the loop. -/
theorem moveBlocks_failed {k : Dev} {t v : State} {error : Byte} (h : moveBlock k t = blockFailed k error v) (left : Nat) :
    moveBlocks k (left + 1) t = (blockFailed k error v).2 := by
  rw [moveBlocks, h]
  exact if_neg Bool.false_ne_true

/-- Whether the DMA's direction for a transfer is memory to device (43_dma.md R231). -/
def Dir.toDevice : Dir → Bool
  | .read => false
  | .write => true

/-- A transfer of 512-byte blocks of image `h` with the DMA set up for it. -/
structure BlockReady (k : Dev) (h : Handle) (dir : Dir) (s : State) : Prop where
  image : (s.acsi[k]).image = some h
  direction : s.ax.dir = dir
  dma : Dma.Aligned s.par dir.toDevice s.dma
  block : s.par.acsiBlockBytes = 512

theorem addBlock_succ (x : Sector) (n : Nat) : x + BitVec.ofNat 32 n + 1 = x + BitVec.ofNat 32 (n + 1) := by
  rw [BitVec.ofNat_add, ← BitVec.add_assoc]
  rfl

/-- What `n` blocks moved from `u` on make of the device, the bus and the DMA, which counts `sectors` of them. -/
structure BlocksMoved (k : Dev) (u : State) (n sectors : Nat) (t : State) : Prop where
  par : t.par = u.par
  ax : t.ax = { u.ax with lba := u.ax.lba + BitVec.ofNat 32 n, left := u.ax.left - n }
  acsi : t.acsi = u.acsi.set k { u.acsi[k] with curLba := curLbaOf (u.ax.lba + BitVec.ofNat 32 n) }
  dma : ∃ fifo drq, t.dma = u.dma.afterSectors u.par sectors fifo drq

namespace BlocksMoved
variable {k : Dev} {u : State}

theorem start (hlba : (u.acsi[k]).curLba = curLbaOf u.ax.lba) (haddr : u.dma.addr.toNat < 2 ^ u.par.dmaAddrW) :
    BlocksMoved k u 0 0 u where
  par := rfl
  ax := by simp
  acsi := by
    rw [BitVec.add_zero, ← hlba]
    exact (Vector.set_getElem_self _).symm
  dma := ⟨_, _, (Dma.afterSectors_zero haddr).symm⟩

variable {n m : Nat} {t : State} (ht : BlocksMoved k u n m t)
include ht

theorem ready {h : Handle} {dir : Dir} (hu : BlockReady k h dir u) : BlockReady k h dir t where
  image := by simpa [ht.acsi] using hu.image
  direction := by rw [ht.ax]; exact hu.direction
  block := by rw [ht.par]; exact hu.block
  dma := by
    obtain ⟨fifo, drq, hdma⟩ := ht.dma
    rw [ht.par, hdma]
    exact ⟨hu.dma.mcr, hu.dma.idx, hu.dma.bct, hu.dma.sector⟩

/-- One more block, in a state with the device and the bus of before. -/
theorem next {v : State} {m' : Nat} (hpar : v.par = t.par) (hax : v.ax = t.ax) (hacsi : v.acsi = t.acsi)
    (hdma : ∃ fifo drq, v.dma = u.dma.afterSectors u.par m' fifo drq) : BlocksMoved k u (n + 1) m' (blockMoved k v).2 where
  par := by simpa using hpar.trans ht.par
  ax := by
    rw [← addBlock_succ, ← Nat.sub_sub]
    simp only [blockMoved, State.modAcsi, hax, ht.ax]
  acsi := by
    rw [← addBlock_succ]
    simp [blockMoved, hax, hacsi, ht.ax, ht.acsi]
  dma := by simpa using hdma

end BlocksMoved

/-- How a transfer from `u` on stands before its end: `n` blocks have moved, the DMA has counted `sectors`; it failed or not,
and the DMA's error latch is set or not (43_dma.md R243, 45_acsi.md R316). -/
structure BlocksEnded (k : Dev) (u : State) (n sectors : Nat) (fails latched : Prop) [Decidable fails] [Decidable latched]
    (error : Byte) (w : State) : Prop where
  dma : ∃ fifo drq, w.dma = { u.dma.afterSectors u.par sectors fifo drq with err := u.dma.err || latched }
  device : w.acsi[k] = { u.acsi[k] with
    curLba := curLbaOf (u.ax.lba + BitVec.ofNat 32 n)
    status := if fails then u.par.acsiStErr else (u.acsi[k]).status
    error := if fails then error else (u.acsi[k]).error }

section
variable {k : Dev} {u t : State} {n m : Nat} {fails latched : Prop} [Decidable fails] [Decidable latched] {error : Byte}
  (ht : BlocksMoved k u n m t)
include ht

theorem BlocksMoved.ended (hfails : ¬fails) (hlatched : ¬latched) : BlocksEnded k u n m fails latched error t where
  dma := by
    obtain ⟨fifo, drq, hdma⟩ := ht.dma
    exact ⟨fifo, drq, by simp [hdma, hlatched, Dma.afterSectors]⟩
  device := by simp [ht.acsi, hfails]

theorem BlocksMoved.failed (hfails : fails) {v : State} {m' : Nat} (hpar : v.par = t.par) (hacsi : v.acsi = t.acsi)
    (hdma : ∃ fifo drq, v.dma = { u.dma.afterSectors u.par m' fifo drq with err := u.dma.err || latched }) :
    BlocksEnded k u n m' fails latched error (blockFailed k error v).2 where
  dma := by simpa using hdma
  device := by simp [blockFailed, acsiReport, hacsi, hpar, ht.acsi, ht.par, hfails]

end

/-! ### Blocks read -/

/-- The bytes of a number of blocks, one block after another. -/
def blockBytes (block : Nat → List Byte) : Nat → List Byte
  | 0 => []
  | n + 1 => blockBytes block n ++ block n

section
variable {block : Nat → List Byte} (hblock : ∀ j, (block j).length = 512)
include hblock

theorem length_blockBytes (n : Nat) : (blockBytes block n).length = 512 * n := by
  induction n with
  | zero => rfl
  | succ n ih => rw [blockBytes, List.length_append, ih, hblock, Nat.mul_succ]

theorem getElem?_blockBytes {n j m : Nat} (hj : j < n) (hm : m < 512) :
    (blockBytes block n)[512 * j + m]? = (block j)[m]? := by
  induction n with
  | zero => exact absurd hj (Nat.not_lt_zero j)
  | succ n ih =>
    have hlen := length_blockBytes hblock n
    rw [blockBytes]
    rcases Nat.lt_succ_iff_lt_or_eq.1 hj with hlt | rfl
    · rw [List.getElem?_append_left (by omega), ih hlt]
    · rw [List.getElem?_append_right (by omega), hlen, Nat.add_sub_cancel_left]

end

/-- Block `j` of an image from a number on, as a read delivers it (45_acsi.md R316). -/
def imageBlock (s : State) (h : Handle) (j : Nat) : List Byte :=
  fitBytes 512 ((storeFind s.disks.image (sectorKey h (s.ax.lba + BitVec.ofNat 32 j))).getD [])

/-- What `n` blocks read from `u` on make of the machine: the DMA counts those it has a counter for, and they are in memory. -/
structure BlocksRead (k : Dev) (h : Handle) (u : State) (n : Nat) (t : State) : Prop
    extends BlocksMoved k u n (min n u.dma.sct.toNat) t where
  mem : t.mem = Memory.writeBytes u.par u.mem u.dma.addr (blockBytes (imageBlock u h) (min n u.dma.sct.toNat))
  disks : t.disks = { u.disks with ioFail := u.disks.ioFail.drop n }

theorem length_imageBlock (s : State) (h : Handle) (j : Nat) : (imageBlock s h j).length = 512 := length_fitBytes 512 _

section
variable {k : Dev} {h : Handle} {u : State} (hu : BlockReady k h .read u)
include hu

/-- A block given to the DMA behind `n` others goes to memory if the counter has not run out (43_dma.md R239, R241). -/
theorem BlocksRead.given {n : Nat} {t : State} (ht : BlocksRead k h u n t) {v : State} (hpar : v.par = t.par)
    (hdma : v.dma = t.dma) (hmem : v.mem = t.mem) :
    (∃ fifo drq, (drqInAll (imageBlock u h n) v).dma = u.dma.afterSectors u.par (min (n + 1) u.dma.sct.toNat) fifo drq) ∧
      (drqInAll (imageBlock u h n) v).mem =
        Memory.writeBytes u.par u.mem u.dma.addr (blockBytes (imageBlock u h) (min (n + 1) u.dma.sct.toNat)) := by
  have haligned : Dma.Aligned v.par false v.dma := by
    rw [hpar, hdma]
    exact (ht.ready hu).dma
  obtain ⟨fifo, drq, hcount⟩ := ht.dma
  rw [ht.mem] at hmem
  rw [hcount] at hdma
  rw [ht.par] at hpar
  by_cases hroom : n < u.dma.sct.toNat
  · rw [Nat.min_eq_left hroom.le] at hdma hmem
    have hsct : v.dma.sct ≠ 0 := by
      rw [hdma]
      exact sub_ofNat_ne_zero hroom
    have haddr : v.dma.addr = u.par.addrAt u.dma.addr (blockBytes (imageBlock u h) n).length := by
      rw [hdma, length_blockBytes (length_imageBlock u h)]
      rfl
    obtain ⟨fifo', hblock, hbytes⟩ := drqInAll_counted haligned hsct (length_imageBlock u h n)
    rw [hbytes, hblock, hpar, hmem, haddr, ← Memory.writeBytes_append, hdma, Dma.afterSectors_succ,
      Nat.min_eq_left hroom]
    exact ⟨⟨fifo', false, rfl⟩, rfl⟩
  · have hfull : u.dma.sct.toNat ≤ n := Nat.not_lt.1 hroom
    rw [Nat.min_eq_right hfull] at hdma hmem
    have hsct : v.dma.sct = 0 := by
      rw [hdma]
      exact sub_ofNat_toNat _
    obtain ⟨drq', hrefused⟩ := drqInAll_refused (l := imageBlock u h n) haligned.mcr hsct
    rw [hrefused, Nat.min_eq_right (by omega)]
    exact ⟨⟨fifo, drq', by rw [hdma]; rfl⟩, hmem⟩

variable (hlba : (u.acsi[k]).curLba = curLbaOf u.ax.lba) (haddr : u.dma.addr.toNat < 2 ^ u.par.dmaAddrW)

omit hu in
include hlba haddr in
theorem BlocksRead.start : BlocksRead k h u 0 u where
  toBlocksMoved := by
    rw [Nat.zero_min]
    exact .start hlba haddr
  mem := by
    rw [Nat.zero_min]
    rfl
  disks := rfl

/-- One more block read, the oracle's call being good. -/
theorem BlocksRead.next {n : Nat} {t : State} (ht : BlocksRead k h u n t) (hgood : u.disks.ioFail[n]? ≠ some true) :
    (moveBlock k t).1 = true ∧ BlocksRead k h u (n + 1) (moveBlock k t).2 := by
  have hready := ht.ready hu
  have hhead : t.disks.ioFail.head? ≠ some true := by
    rw [ht.disks, List.head?_drop]
    exact hgood
  have hdata : fitBytes t.par.acsiBlockBytes ((storeFind t.disks.image (sectorKey h t.ax.lba)).getD []) =
      imageBlock u h n := by
    rw [hready.block, ht.disks, ht.ax]
    rfl
  rw [moveBlock_read_good hready.image hready.direction hhead hdata]
  obtain ⟨hdma, hmem⟩ := ht.given hu (v := (popFail t).emit (.imgRead h t.ax.lba (some (imageBlock u h n)))) rfl rfl rfl
  refine ⟨rfl, ht.toBlocksMoved.next (by simp) (by simp) (by simp) hdma, by simpa using hmem, ?_⟩
  simp [ht.disks, List.tail_drop]

/-- A block whose call fails ends the transfer with ACSI_E_READ and the DMA's error latch (43_dma.md R243). -/
theorem BlocksRead.failing {n : Nat} {t : State} (ht : BlocksRead k h u n t) (hfail : u.disks.ioFail[n]? = some true) :
    moveBlock k t = blockFailed k u.par.acsiERead (dmaError ((popFail t).emit (.imgRead h t.ax.lba none))) := by
  have hready := ht.ready hu
  have hhead : t.disks.ioFail.head? = some true := by
    rw [ht.disks, List.head?_drop]
    exact hfail
  rw [moveBlock_read_failing hready.image hready.direction hhead, ht.par]

include hlba haddr in
/-- A read up to its end: the blocks before the failing call, or all of them. -/
theorem moveBlocks_read {n total : Nat} (hn : n ≤ total) (hgood : ∀ j < n, u.disks.ioFail[j]? ≠ some true)
    (hfail : n < total → u.disks.ioFail[n]? = some true) :
    let w := moveBlocks k total u
    BlocksEnded k u n (min n u.dma.sct.toNat) (n < total) (n < total) u.par.acsiERead w ∧
      w.mem = Memory.writeBytes u.par u.mem u.dma.addr (blockBytes (imageBlock u h) (min n u.dma.sct.toNat)) ∧
      w.disks = { u.disks with ioFail := u.disks.ioFail.drop (n + if n < total then 1 else 0) } := by
  obtain ⟨t, ht, hrest⟩ := moveBlocks_of_steps (P := BlocksRead k h u) (.start hlba haddr) (n := n)
    fun j hj t ht => ht.next hu (hgood j hj)
  by_cases hf : n < total
  · obtain ⟨left, rfl⟩ := Nat.exists_eq_add_of_lt hf
    obtain ⟨fifo, drq, hdma⟩ := ht.dma
    rw [Nat.add_assoc, hrest, moveBlocks_failed (ht.failing hu (hfail hf))]
    refine ⟨ht.failed (by omega) (by simp) (by simp) ⟨fifo, drq, ?_⟩, ?_, ?_⟩
    · simp [hdma, Dma.afterSectors]
    · simpa using ht.mem
    · simp [ht.disks, List.tail_drop]
  · obtain rfl : n = total := by omega
    have hall := hrest 0
    rw [Nat.add_zero, moveBlocks] at hall
    rw [hall, if_neg hf]
    exact ⟨ht.ended hf hf, ht.mem, ht.disks⟩

end

end Sys2Proof.Machine
end

section
namespace Sys2Proof.Machine

/-! ### A transfer in instant timing -/

/-- Block `j` from a 24-bit number on. -/
theorem blockNumber_add (lba : BitVec 24) (j : Nat) :
    lba.setWidth 32 + BitVec.ofNat 32 j = BitVec.ofNat 32 (lba.toNat + j) := by
  apply BitVec.eq_of_toNat_eq
  simp

/-- The address after `n` blocks, while it fits its 24 bits (45_acsi.md R316). -/
theorem curLbaOf_add {lba : BitVec 24} {n : Nat} (h : lba.toNat + n < 2 ^ 24) :
    curLbaOf (lba.setWidth 32 + BitVec.ofNat 32 n) = lba + BitVec.ofNat 24 n := by
  have hvalue : (BitVec.ofNat 32 (lba.toNat + n)).toNat = lba.toNat + n := by
    rw [BitVec.toNat_ofNat]
    omega
  rw [blockNumber_add, curLbaOf, hvalue, if_pos h]
  apply BitVec.eq_of_toNat_eq
  simp

theorem curLbaOf_setWidth (lba : BitVec 24) : curLbaOf (lba.setWidth 32) = lba := by
  have hstart := curLbaOf_add (lba := lba) (n := 0) lba.isLt
  simpa using hstart

section
variable {s : State} {k : Dev} {lba : BitVec 24} {count : Byte} {dir : Dir}

theorem transferring_device : (s.transferring k dir lba count).acsi[k] =
    { s.acsi[k] with status := s.par.acsiStOk, error := s.par.acsiENone, curLba := lba } := modAcsi_self _ _ _

theorem transferring_ready {h : Handle} (himage : (s.acsi[k]).image = some h)
    (hdma : Dma.Aligned s.par dir.toDevice s.dma) (hblock : s.par.acsiBlockBytes = 512) :
    BlockReady k h dir (s.transferring k dir lba count) where
  image := by
    rw [transferring_device]
    exact himage
  direction := rfl
  dma := hdma
  block := hblock

theorem transferring_curLba : ((s.transferring k dir lba count).acsi[k]).curLba =
    curLbaOf (s.transferring k dir lba count).ax.lba := by
  rw [transferring_device]
  exact (curLbaOf_setWidth lba).symm

end

/-- The state `t` after an instant transfer in `s` that stood at `w` before its end. -/
structure InstantEnd (s : State) (k : Dev) (w t : State) : Prop where
  dma : t.dma = w.dma
  mem : t.mem = w.mem
  disks : t.disks = w.disks
  device : t.acsi[k] = { w.acsi[k] with phase := 7 }
  left : t.ax.left = 0
  pins : t.pins = { s.pins with disk := true }
  cfg : t.cfg = s.cfg
  ag : t.ag = s.ag

theorem endTransfer_instantEnd {s w : State} (k : Dev) (hpins : w.pins = s.pins) (hcfg : w.cfg = s.cfg) (hag : w.ag = s.ag)
    (r : Word128) : InstantEnd s k w (State.answer { endTransfer k w with acsiPending := none } r) where
  dma := by simp
  mem := by simp
  disks := by simp
  device := by simp [endTransfer, acsiFinish]
  left := by simp [endTransfer]
  pins := by
    simp only [State.answer_pins, endTransfer, acsiFinish, setPin_eq, State.modAcsi_pins, hpins]
    rfl
  cfg := by simp [hcfg]
  ag := by simp [hag]

/-- An instant transfer moves its blocks and ends inside the bus write (45_acsi.md R318, R320). -/
theorem exec_instant {s : State} {k : Dev} {lba : BitVec 24} {count ctrl : Byte} {op : Instr × Dir}
    (hop : op ∈ [(Instr.acsiRead k lba count ctrl, Dir.read), (.acsiWrite k lba count ctrl, .write)])
    (hrange : lba.toNat + count.toNat ≤ (s.acsi[k]).sectors.toNat) (hcfg : s.cfg.getLsbD 0 = false) :
    ∃ t, exec op.1 s = .next t ∧ InstantEnd s k (moveBlocks k count.toNat (s.transferring k op.2 lba count)) t := by
  rw [exec_acsiTransfer hop, startTransfer_instant op.2 hrange hcfg]
  exact ⟨_, rfl, endTransfer_instantEnd k (by simp [State.transferring]) (by simp [State.transferring])
    (by simp [State.transferring]) _⟩

/-- The device after an instant transfer: idle, and where the transfer stopped. -/
theorem InstantEnd.device_eq {s w t : State} {k : Dev} {dir : Dir} {lba : BitVec 24} {count : Byte} {n m : Nat}
    {fails latched : Prop} [Decidable fails] [Decidable latched] {error : Byte} (hend : InstantEnd s k w t)
    (hw : BlocksEnded k (s.transferring k dir lba count) n m fails latched error w) :
    t.acsi[k] = { s.acsi[k] with
      phase := 7
      status := if fails then s.par.acsiStErr else s.par.acsiStOk
      error := if fails then error else s.par.acsiENone
      curLba := curLbaOf (lba.setWidth 32 + BitVec.ofNat 32 n) } := by
  rw [hend.device, hw.device, transferring_device]
  rfl

/-- Settles O50: the blocks before the failing call are read, and those that the counter admits are in memory. -/
theorem instantReadDelivers : Obligations.InstantReadDelivers := by
  intro s k lba count ctrl h n himage hsector hblock hrange hp hroom haddr hcfg hm hmcr hidx hbct hn hgood hfail fails moved
  let u := s.transferring k .read lba count
  obtain ⟨t, hrun, hend⟩ :=
    exec_instant (op := (.acsiRead k lba count ctrl, .read)) (ctrl := ctrl) (by simp) hrange hcfg
  have hready : BlockReady k h .read u := transferring_ready himage ⟨hmcr, hidx, hbct, hsector⟩ hblock
  obtain ⟨hended, hmem, hdisks⟩ := moveBlocks_read hready transferring_curLba haddr hn hgood hfail
  obtain ⟨fifo, drq, hdma⟩ := hended.dma
  have hdevice := hend.device_eq hended
  replace hdma := hend.dma.trans hdma
  replace hmem := hend.mem.trans hmem
  have hlen : (blockBytes (imageBlock u h) moved).length = 512 * moved := length_blockBytes (length_imageBlock u h) moved
  have hmoved : moved ≤ count.toNat := (Nat.min_le_left _ _).trans hn
  refine ⟨t, hrun, fun j hj m hm' => ?_, fun a ha => ?_, by rw [hdma]; rfl, by rw [hdma]; exact hbct,
    by rw [hdma]; exact hidx, by rw [hdma]; rfl, by rw [hdma]; rfl, by rw [hdevice], by rw [hdevice]; rfl,
    by rw [hdevice], fun hfit => ?_, hend.left, hend.disks.trans hdisks, hend.pins, hend.cfg, hend.ag⟩
  · have hk : 512 * j + m < (blockBytes (imageBlock u h) moved).length := by omega
    have hbyte := Memory.read_writeBytes s.par hp.address.2 _ s.mem s.dma.addr hm (by omega) (512 * j + m) hk
    have hblockByte := (List.getElem?_eq_getElem hk).symm.trans (getElem?_blockBytes (length_imageBlock u h) hj hm')
    rw [hmem, ← blockNumber_add]
    exact (congrArg some hbyte).trans hblockByte
  · rw [hmem]
    exact Memory.read_writeBytes_outside s.par hp.address.2 _ s.mem s.dma.addr a fun m hlt => ha m (lt_of_lt_of_eq hlt hlen)
  · rw [hdevice]
    exact curLbaOf_add hfit

end Sys2Proof.Machine
end

section
namespace Sys2Proof.Machine

/-! ### Blocks written -/

/-- The images with a number of blocks written to one, from a sector on. -/
def storeBlocks (h : Handle) (lba : Sector) (block : Nat → List Byte) (image : List (Nat × List Byte)) :
    Nat → List (Nat × List Byte)
  | 0 => image
  | n + 1 => storePut (storeBlocks h lba block image n) (sectorKey h (lba + BitVec.ofNat 32 n)) (block n)

section
variable (h : Handle) (lba : Sector) (block : Nat → List Byte) (image : List (Nat × List Byte))

/-- Blocks of one image below the last sector number have different keys. -/
theorem sectorKey_add_ne {j n : Nat} (hj : j < n) (hn : lba.toNat + n < 2 ^ 32) :
    sectorKey h (lba + BitVec.ofNat 32 j) ≠ sectorKey h (lba + BitVec.ofNat 32 n) := by
  have hnumber : ∀ i ≤ n, (lba + BitVec.ofNat 32 i).toNat = lba.toNat + i := fun i hi => by
    rw [BitVec.toNat_add, BitVec.toNat_ofNat]
    omega
  rw [sectorKey, sectorKey, hnumber j hj.le, hnumber n le_rfl]
  omega

theorem storeFind_storeBlocks {n j : Nat} (hj : j < n) (hn : lba.toNat + n ≤ 2 ^ 32) :
    storeFind (storeBlocks h lba block image n) (sectorKey h (lba + BitVec.ofNat 32 j)) = some (block j) := by
  induction n with
  | zero => exact absurd hj (Nat.not_lt_zero j)
  | succ n ih =>
    rw [storeBlocks]
    rcases Nat.lt_succ_iff_lt_or_eq.1 hj with hlt | rfl
    · rw [storeFind_put_other _ _ _ _ (sectorKey_add_ne h lba hlt (by omega)), ih hlt (by omega)]
    · exact storeFind_put_self _ _ _

theorem storeFind_storeBlocks_other {n key : Nat} (hkey : ∀ j < n, key ≠ sectorKey h (lba + BitVec.ofNat 32 j)) :
    storeFind (storeBlocks h lba block image n) key = storeFind image key := by
  induction n with
  | zero => rfl
  | succ n ih =>
    rw [storeBlocks, storeFind_put_other _ _ _ _ (hkey n (by omega)), ih fun j hj => hkey j (by omega)]

end

/-- Block `j` of memory from the DMA's address on. -/
def memoryBlock (s : State) (j : Nat) : List Byte :=
  Memory.bytesAt s.par s.mem (s.par.addrAt s.dma.addr (512 * j)) 512

/-- What `n` blocks written from `u` on make of the machine: they are in the image, and the DMA has counted them. -/
structure BlocksWritten (k : Dev) (h : Handle) (u : State) (n : Nat) (t : State) : Prop
    extends BlocksMoved k u n n t where
  mem : t.mem = u.mem
  disks : t.disks = { u.disks with
    image := storeBlocks h u.ax.lba (memoryBlock u) u.disks.image n
    ioFail := u.disks.ioFail.drop n }

section
variable {k : Dev} {h : Handle} {u : State} (hu : BlockReady k h .write u)
include hu

/-- A block asked of the DMA behind `n` others, the counter above `n`: the bytes of memory behind theirs. -/
theorem BlocksWritten.taken {n : Nat} {t : State} (ht : BlocksWritten k h u n t) (hroom : n < u.dma.sct.toNat) :
    ∃ fifo trace, drqOutAll t.par.acsiBlockBytes t =
      ((memoryBlock u n).map some, t.drawn trace (u.dma.afterSectors u.par (n + 1) fifo false)) := by
  have hready := ht.ready hu
  obtain ⟨fifo, drq, hcount⟩ := ht.dma
  have hsct : t.dma.sct ≠ 0 := by
    rw [hcount]
    exact sub_ofNat_ne_zero hroom
  obtain ⟨fifo', trace, hsector⟩ := drqOutAll_sector hready.dma hsct
  rw [ht.par, ht.mem, hcount, Dma.afterSectors_succ] at hsector
  rw [hready.block]
  exact ⟨fifo', trace, hsector⟩

variable (hlba : (u.acsi[k]).curLba = curLbaOf u.ax.lba) (haddr : u.dma.addr.toNat < 2 ^ u.par.dmaAddrW)

omit hu in
include hlba haddr in
theorem BlocksWritten.start : BlocksWritten k h u 0 u where
  toBlocksMoved := .start hlba haddr
  mem := rfl
  disks := rfl

/-- One more block written, the counter not run out and the oracle's call good. -/
theorem BlocksWritten.next {n : Nat} {t : State} (ht : BlocksWritten k h u n t) (hroom : n < u.dma.sct.toNat)
    (hgood : u.disks.ioFail[n]? ≠ some true) :
    (moveBlock k t).1 = true ∧ BlocksWritten k h u (n + 1) (moveBlock k t).2 := by
  have hready := ht.ready hu
  have hhead : t.disks.ioFail.head? ≠ some true := by
    rw [ht.disks, List.head?_drop]
    exact hgood
  obtain ⟨fifo, trace, htaken⟩ := ht.taken hu hroom
  rw [moveBlock_write_good (bytes := memoryBlock u n) hready.direction htaken (by dsimp only) hready.image hhead]
  refine ⟨rfl, ht.toBlocksMoved.next (by simp) (by simp) (by simp) ⟨fifo, false, by simp⟩, by simpa using ht.mem, ?_⟩
  simp [ht.disks, ht.ax, storeBlocks, List.tail_drop]

/-- A block whose call is refused ends the transfer, after its bytes were taken (43_dma.md R243). -/
theorem BlocksWritten.refused {n : Nat} {t : State} (ht : BlocksWritten k h u n t) (hroom : n < u.dma.sct.toNat)
    (hfail : u.disks.ioFail[n]? = some true) : ∃ fifo trace, moveBlock k t =
      blockFailed k u.par.acsiEWrite (dmaError
        ((popFail (t.drawn trace (u.dma.afterSectors u.par (n + 1) fifo false))).emit
          (.imgWrite h t.ax.lba (memoryBlock u n) false))) := by
  have hready := ht.ready hu
  have hhead : t.disks.ioFail.head? = some true := by
    rw [ht.disks, List.head?_drop]
    exact hfail
  obtain ⟨fifo, trace, htaken⟩ := ht.taken hu hroom
  refine ⟨fifo, trace, ?_⟩
  rw [moveBlock_write_failing (bytes := memoryBlock u n) hready.direction htaken (by dsimp only) hready.image hhead, ht.par]

/-- With the counter run out no byte is given, and no call is made (43_dma.md R241, 45_acsi.md R316). -/
theorem BlocksWritten.exhausted {n : Nat} {t : State} (ht : BlocksWritten k h u n t) (hfull : u.dma.sct.toNat = n) :
    ∃ drq, moveBlock k t = blockFailed k u.par.acsiEWrite { t with dma := { t.dma with drq := drq } } := by
  have hready := ht.ready hu
  obtain ⟨fifo, drq, hcount⟩ := ht.dma
  have hsct : t.dma.sct = 0 := by
    rw [hcount, ← hfull]
    exact sub_ofNat_toNat _
  obtain ⟨drq', hnone⟩ := drqOutAll_refused hready.dma.mcr hsct 512
  rw [← hready.block] at hnone
  have hmissing : none ∈ List.replicate t.par.acsiBlockBytes (none : Option Byte) := by
    rw [hready.block]
    exact List.mem_replicate.2 ⟨by decide, rfl⟩
  refine ⟨drq', ?_⟩
  rw [moveBlock_write_missing hready.direction hnone hmissing, ht.par]

include hlba haddr in
/-- A write up to its end: the blocks before the call refused or the counter run out, or all of them. -/
theorem moveBlocks_write {n total : Nat} (hn : n ≤ total) (hsct : n ≤ u.dma.sct.toNat)
    (hgood : ∀ j < n, u.disks.ioFail[j]? ≠ some true)
    (hfail : n < total → u.dma.sct.toNat = n ∨ u.disks.ioFail[n]? = some true) :
    let w := moveBlocks k total u
    let refused := n < total ∧ n < u.dma.sct.toNat
    let taken := n + if refused then 1 else 0
    BlocksEnded k u n taken (n < total) refused u.par.acsiEWrite w ∧ w.mem = u.mem ∧
      w.disks = { u.disks with
        image := storeBlocks h u.ax.lba (memoryBlock u) u.disks.image n
        ioFail := u.disks.ioFail.drop taken } := by
  intro w refused taken
  obtain ⟨t, ht, hrest⟩ := moveBlocks_of_steps (P := BlocksWritten k h u) (.start hlba haddr) (n := n)
    fun j hj t ht => ht.next hu (by omega) (hgood j hj)
  by_cases hf : n < total
  · obtain ⟨left, rfl⟩ := Nat.exists_eq_add_of_lt hf
    have hstop : w = moveBlocks k (left + 1) t := hrest (left + 1)
    by_cases hroom : n < u.dma.sct.toNat
    · have hrefused : refused := ⟨hf, hroom⟩
      have htaken : taken = n + 1 := by simp [taken, hrefused]
      obtain ⟨fifo, trace, hmove⟩ := ht.refused hu hroom ((hfail hf).resolve_left (by omega))
      rw [hstop, moveBlocks_failed hmove, htaken]
      refine ⟨ht.failed hf (by simp) (by simp) ⟨fifo, false, ?_⟩, ?_, ?_⟩
      · simp [hrefused]
      · simpa using ht.mem
      · simp [ht.disks, List.tail_drop]
    · have hrefused : ¬refused := fun hboth => hroom hboth.2
      have htaken : taken = n := by simp [taken, hrefused]
      obtain ⟨drq, hmove⟩ := ht.exhausted hu (by omega)
      obtain ⟨fifo, _, hdma⟩ := ht.dma
      rw [hstop, moveBlocks_failed hmove, htaken]
      refine ⟨ht.failed hf rfl rfl ⟨fifo, drq, ?_⟩, ?_, ?_⟩
      · simp [hdma, Dma.afterSectors, hrefused]
      · simpa using ht.mem
      · simpa using ht.disks
  · obtain rfl : n = total := by omega
    have hrefused : ¬refused := fun hboth => hf hboth.1
    have htaken : taken = n := by simp [taken, hrefused]
    have hall : w = t := hrest 0
    rw [hall, htaken]
    exact ⟨ht.ended hf hrefused, ht.mem, ht.disks⟩

end

/-- Settles O51: the blocks before the call refused or the counter run out are written, from memory to the image. -/
theorem instantWriteDelivers : Obligations.InstantWriteDelivers := by
  intro s k lba count ctrl h n himage hsector hblock hrange hp haddr hcfg hmcr hidx hbct hn hsct hgood hfail fails refused
    taken
  let u := s.transferring k .write lba count
  obtain ⟨t, hrun, hend⟩ :=
    exec_instant (op := (.acsiWrite k lba count ctrl, .write)) (ctrl := ctrl) (by simp) hrange hcfg
  have hready : BlockReady k h .write u := transferring_ready himage ⟨hmcr, hidx, hbct, hsector⟩ hblock
  obtain ⟨hended, hmem, hdisks⟩ := moveBlocks_write hready transferring_curLba haddr hn hsct hgood hfail
  obtain ⟨fifo, drq, hdma⟩ := hended.dma
  have hdevice := hend.device_eq hended
  replace hdma := hend.dma.trans hdma
  replace hdisks := hend.disks.trans hdisks
  have hlast : (lba.setWidth 32).toNat + n ≤ 2 ^ 32 := by
    have hlba := lba.isLt
    have hcount := count.isLt
    rw [BitVec.toNat_setWidth_of_le (by decide)]
    omega
  refine ⟨t, hrun, fun j hj => ?_, fun key hkey => ?_, by rw [hdisks]; rfl, by rw [hdisks]; rfl, hend.mem.trans hmem,
    by rw [hdma]; rfl, by rw [hdma]; exact hbct, by rw [hdma]; exact hidx, by rw [hdma]; rfl, by rw [hdma]; rfl,
    by rw [hdevice], by rw [hdevice]; rfl, by rw [hdevice], fun hfit => ?_, hend.left, hend.pins, hend.cfg, hend.ag⟩
  · have hstored := storeFind_storeBlocks h (lba.setWidth 32) (memoryBlock u) s.disks.image hj hlast
    rw [hdisks, ← blockNumber_add]
    refine hstored.trans (congrArg some ?_)
    simp only [memoryBlock, Memory.bytesAt, addrAt_addrAt]
    rfl
  · rw [hdisks]
    refine storeFind_storeBlocks_other h (lba.setWidth 32) (memoryBlock u) s.disks.image fun j hj => ?_
    rw [blockNumber_add]
    exact hkey j hj
  · rw [hdevice]
    exact curLbaOf_add hfit

end Sys2Proof.Machine
end

section
namespace Sys2Proof.Machine

/-! ### The machine never stops -/

section
variable {s : State}

theorem answers_select {n m : Nat} {sel : BitVec 8} {body : Fin m → Result} (h : ∀ k, Answers (body k)) :
    Answers (select n sel s body) := by
  unfold select
  split
  · exact answers_raise _ _
  · exact h _

theorem answers_timed {now : Clock} {body : State → Result} (h : ∀ u, Answers (body u)) : Answers (timed now s body) :=
  answers_ite (answers_raise _ _) (h _)

theorem answers_external {cb : BitVec 8} {body : CbId → Result} (h : ∀ c, Answers (body c)) :
    Answers (external cb s body) := answers_select fun c => answers_ite (answers_raise _ _) (h c)

/-- A command that finds the flag held waits in the same state (log entry 12). -/
theorem answers_critical {b : BufId} {body : CircBuf → CircBuf × Word128} : Answers (critical b body s) :=
  answers_ite (answers_next _) (answers_next _)

theorem answers_onBuffer {buf : BitVec 8} {body : CircBuf → CircBuf × Word128} : Answers (onBuffer buf body s) :=
  answers_select fun _ => answers_critical

/-- A callback with no entry stays in the same state (log entry 22). -/
theorem answers_dispatchEntry {c : CbId} {body : AgEntry → State → Result} (h : ∀ e u, Answers (body e u)) :
    Answers (dispatchEntry c body s) := by
  unfold dispatchEntry
  split
  · exact answers_next _
  · exact h _ _

theorem answers_readRegister (r : ReadReg) (now : Clock) : Answers (readRegister r now s) :=
  answers_timed (answers_readRule r)

theorem answers_writeRegister (r : WriteReg) (v : BitVec 32) (now : Clock) : Answers (writeRegister r v now s) :=
  answers_ite (answers_timed (answers_writeRule r v)) (answers_raise _ _)

theorem answers_noRegister (unit : BitVec 8) : Answers (noRegister unit s) :=
  answers_ite (answers_raise _ _) (answers_raise _ _)

theorem answers_execRegRd (unit : BitVec 8) (reg : BitVec 16) (now : Clock) : Answers (execRegRd unit reg now s) := by
  unfold execRegRd
  split
  · exact answers_readRegister _ _
  · exact answers_noRegister _

theorem answers_execRegWr (unit : BitVec 8) (reg : BitVec 16) (v : BitVec 32) (now : Clock) :
    Answers (execRegWr unit reg v now s) := by
  unfold execRegWr
  split
  · exact answers_writeRegister _ _ _
  · exact answers_noRegister _

theorem answers_execAgQuery (cb : BitVec 8) : Answers (execAgQuery cb s) :=
  answers_select fun _ => by
    split
    · exact answers_respond _ _ _ _ _
    · exact answers_respond _ _ _ _ _

theorem answers_execFddConv (fn : BitVec 16) (arg : BitVec 32) : Answers (execFddConv fn arg s) := by
  unfold execFddConv
  split
  · exact answers_raise _ _
  · exact answers_ite (answers_respond _ _ _ _ _) (answers_raise _ _)

/-- A command on one of two units answers when its number fails the check, and when it checks its time and goes on. -/
theorem answers_of_selected {i : Instr} {sel : BitVec 8} {now : Clock}
    (hbad : 2 ≤ sel.toNat → exec i s = raise .badSel s)
    (hok : sel.toNat < 2 → ∃ body, ChecksTime i now s body) : Answers (exec i s) := by
  rcases Nat.lt_or_ge sel.toNat 2 with hsel | hsel
  · obtain ⟨body, hchecks⟩ := hok hsel
    have hruns : exec i s = timed now s body := hchecks.runs s.now
    rw [hruns]
    exact answers_timed hchecks.answers
  · rw [hbad hsel]
    exact answers_raise _ _

end

/-- No instruction faults or is without a meaning (60_exceptions.md R350, R354). -/
theorem exec_answers (i : Instr) (s : State) : Answers (exec i s) := by
  cases i
  case nop | reset => exact answers_respond _ _ _ _ _
  case advance => exact answers_ite (answers_timed fun _ => answers_next _) (answers_raise _ _)
  case schedule | cancel => exact answers_external fun _ => answers_respond _ _ _ _ _
  case fireAck => exact answers_external fun _ => answers_ite (answers_raise _ _) (answers_next _)
  case agQuery => exact answers_execAgQuery _
  case cbCreate | cbAddbytes => exact answers_select fun _ => answers_ite (answers_raise _ _) answers_critical
  case cbDestroy | cbReset => exact answers_select fun _ => answers_critical
  case cbAddbyte | cbReadbyte | cbNextbyte | cbArebytes | cbCount => exact answers_onBuffer
  case regRd => exact answers_execRegRd _ _ _
  case regWr => exact answers_execRegWr _ _ _ _
  case aciaRxbyte => exact answers_of_selected select_bad checksTime_aciaRxbyte
  case fddMotor => exact answers_of_selected select_bad checksTime_fddMotor
  case fddStep => exact answers_of_selected select_bad checksTime_fddStep
  case fddRead => exact answers_of_selected select_bad checksTime_fddRead
  case fddWrite => exact answers_of_selected select_bad checksTime_fddWrite
  case fddConv => exact answers_execFddConv _ _
  case fddMount | fddUnmount | acsiAttach | acsiDetach =>
    exact answers_select fun _ => answers_ite (answers_raise _ _) (answers_respond _ _ _ _ _)
  case acsiReady | acsiRequestSense | acsiFormat | acsiRead | acsiWrite | acsiSeek | acsiInquiry | acsiModeSelect
      | acsiInvalid =>
    exact answers_respond _ _ _ _ _
  case cbAcia0Tx | cbAcia0Rx | cbAcia1Tx | cbAcia1Rx | cbFdd0Index | cbFdd1Index | cbFdd0Xfer | cbFdd1Xfer
      | cbAcsiBlock | cbReserved9 | cbReserved10 | cbReserved12 =>
    exact answers_dispatchEntry fun _ _ => answers_next _
  case cbExt => exact answers_dispatchEntry fun _ _ => answers_respond _ _ _ _ _
  case regWrEngineCfg | regWrAcia0Cr | regWrAcia0Tdr | regWrAcia1Cr | regWrAcia1Tdr | regWrDmaMcr | regWrDmaSct
      | regWrDmaAddr | regWrFddCpb | regWrAcsibusByte =>
    exact answers_writeRegister _ _ _
  all_goals exact answers_readRegister _ _

/-- What a step found, it does; with nothing found the state stays (log entry 3). -/
theorem answers_result (s : State) (w : Work) : Answers (w.result s) := by
  cases w with
  | idle => exact answers_next s
  | reply t => exact answers_next t
  | run i u => exact exec_answers i u

theorem step_answers (s : State) : Answers (step s) := by
  rw [step_eq]
  exact answers_result s _

/-- Settles O8: every meaning ends in an answer, a refusal by error word or a silent next state, and a step is nothing, a
response or a meaning. -/
theorem nothingStops : Obligations.NothingStops := ⟨exec_answers, step_answers⟩

end Sys2Proof.Machine
end
